-- ==== Sys2Proof/Word.lean ====
section
/-! DEFINITION. The word widths of HDRC-1: 00_scope.md R9. -/

namespace Sys2Proof

/-- One raster byte: "Each raster byte is 8 bits, unsigned" (R9). -/
abbrev Byte := BitVec 8

/-- An operand field, a dimension, a binary32 pattern, or one packed pixel (R9, R52, R70). -/
abbrev Word32 := BitVec 32

/-- IDX, a pixel index, or the DATA field of a response (R9, R73, R74). -/
abbrev Word64 := BitVec 64

/-- A command word or a response word (R9, R70, R74). -/
abbrev Word128 := BitVec 128

end Sys2Proof
end

