-- ==== Sys2Proof/Syntax.lean ====
section
/-! DEFINITION. The eight commands of HDRC-1, one constructor for each row of spec/opcode_table.json, the raw fields of
a command word, and the two pseudo-instructions: 30_encoding.md R70 to R73, R81. -/

namespace Sys2Proof

/-- The output format selector (R25): "an enumerated value {Rgbm, Rgba} chosen once per run". -/
inductive Fmt where
  | rgbm
  | rgba
  deriving DecidableEq, Repr

/-- A command with its operands as R73 assembles them. -/
inductive Instr where
  /-- FRAME: open a frame of `width` by `height` pixels in format `fmt` (R140). -/
  | frame (width height : Word32) (fmt : Fmt)
  /-- PIXEL: encode and pack one pixel; the operands are binary32 patterns (R141). -/
  | pixel (r g b : Word32)
  /-- FINISH: close the frame with its length check (R142). -/
  | finish
  /-- CLEAR: abandon any frame (R143). -/
  | clear
  /-- RDSTAT: read the status (R170). -/
  | rdstat
  /-- RDCFG: read the frame dimensions (R171). -/
  | rdcfg
  /-- RDCNT: read the pixel count (R172). -/
  | rdcnt
  /-- RDBUF: read the pixel of the finished raster at `index` (R173). -/
  | rdbuf (index : Word64)
  deriving DecidableEq, Repr

/-- The pseudo-instruction NOP expands to RDSTAT (R81). -/
abbrev Instr.nop : Instr := .rdstat

/-- The pseudo-instruction BLACK expands to PIXEL with three zero patterns (R81). -/
abbrev Instr.black : Instr := .pixel 0 0 0

/-- The five fields of a command word (R70). -/
structure Command where
  op  : Byte
  rsv : BitVec 24
  a   : Word32
  b   : Word32
  c   : Word32
  deriving DecidableEq, Repr

end Sys2Proof
end

