-- ==== Sys2Proof/WellFormed.lean ====
section
/-! DEFINITION. When a command is well-formed: 30_encoding.md R72, on the fields of R70.
Every term of Instr stands for a well-formed command, since its operands have exactly the widths of R73; what can be
ill-formed is the word the host sends. -/

namespace Sys2Proof

/-- R72, as the rule writes it: OP is one of 0x01 to 0x08, RSV is 0, and every operand bit marked "must be 0" is 0. -/
def Command.wellFormed (k : Command) : Bool :=
  decide (k.rsv = 0) &&
    ((decide (k.op = 0x01#8) && decide (k.c.extractLsb' 1 31 = 0)) ||
     decide (k.op = 0x02#8) ||
     ((decide (k.op = 0x03#8) || decide (k.op = 0x04#8) || decide (k.op = 0x05#8) || decide (k.op = 0x06#8) ||
        decide (k.op = 0x07#8)) &&
        decide (k.a = 0) && decide (k.b = 0) && decide (k.c = 0)) ||
     (decide (k.op = 0x08#8) && decide (k.c = 0)))

end Sys2Proof
end

