-- ==== Sys2Proof/Decode.lean ====
section
/-! DEFINITION. Command words to commands and back: 30_encoding.md R70 to R73, R77 to R79, and the machine-readable
table opcode_table.json. The decoder is total: a word that is no command is rejected by name, and every such name is
answered by the core with ILLEGAL (R77). The checks are written again here, not taken from WellFormed.lean; that the two
agree is stated as an obligation. -/

namespace Sys2Proof

/-- Why a word is no command (R77, R191). -/
inductive DecodeError where
  /-- OP is 0x00 or 0x09 to 0xFF. -/
  | opcode
  /-- RSV is not 0. -/
  | reservedBits
  /-- An operand bit that must be 0 is set. -/
  | operandBits
  deriving DecidableEq, Repr

/-- Splits a word into its fields (R70). -/
def Command.ofWord (w : Word128) : Command :=
  { op := w.extractLsb' 0 8, rsv := w.extractLsb' 8 24, a := w.extractLsb' 32 32, b := w.extractLsb' 64 32,
    c := w.extractLsb' 96 32 }

/-- Joins the fields of a word: `{C, B, A, RSV, OP}` (R70). -/
def Command.toWord (k : Command) : Word128 := k.c ++ k.b ++ k.a ++ k.rsv ++ k.op

/-- The format that bit C[0] of FRAME selects: 0 Rgbm, 1 Rgba (R25, R71). -/
def Fmt.ofBit (b : BitVec 1) : Fmt := if b = 1 then .rgba else .rgbm

/-- The bit that selects a format (R25). -/
def Fmt.bit : Fmt → BitVec 1
  | .rgbm => 0
  | .rgba => 1

/-- A command without operands: A, B and C must be 0 (R71). -/
def Command.noOperands (k : Command) (i : Instr) : Except DecodeError Instr :=
  if k.a = 0 ∧ k.b = 0 ∧ k.c = 0 then .ok i else .error .operandBits

/-- The command of an opcode with its operands taken from the fields (R71, R73); RSV is checked by `decode`. -/
def Command.decodeBody (k : Command) : Except DecodeError Instr :=
  if k.op = 0x01#8 then
    if k.c.extractLsb' 1 31 = 0 then .ok (.frame k.a k.b (Fmt.ofBit (k.c.extractLsb' 0 1))) else .error .operandBits
  else if k.op = 0x02#8 then .ok (.pixel k.a k.b k.c)
  else if k.op = 0x03#8 then k.noOperands .finish
  else if k.op = 0x04#8 then k.noOperands .clear
  else if k.op = 0x05#8 then k.noOperands .rdstat
  else if k.op = 0x06#8 then k.noOperands .rdcfg
  else if k.op = 0x07#8 then k.noOperands .rdcnt
  else if k.op = 0x08#8 then
    if k.c = 0 then .ok (.rdbuf (k.b ++ k.a)) else .error .operandBits
  else .error .opcode

/-- The decoder of the command port: every transfer is one command (R79). -/
def decode (w : Word128) : Except DecodeError Instr :=
  if (Command.ofWord w).rsv = 0 then (Command.ofWord w).decodeBody else .error .reservedBits

/-- The fields of the command that stands for an instruction (R71). -/
def Instr.command : Instr → Command
  | .frame w h f => { op := 0x01#8, rsv := 0, a := w, b := h, c := f.bit.setWidth 32 }
  | .pixel r g b => { op := 0x02#8, rsv := 0, a := r, b := g, c := b }
  | .finish => { op := 0x03#8, rsv := 0, a := 0, b := 0, c := 0 }
  | .clear => { op := 0x04#8, rsv := 0, a := 0, b := 0, c := 0 }
  | .rdstat => { op := 0x05#8, rsv := 0, a := 0, b := 0, c := 0 }
  | .rdcfg => { op := 0x06#8, rsv := 0, a := 0, b := 0, c := 0 }
  | .rdcnt => { op := 0x07#8, rsv := 0, a := 0, b := 0, c := 0 }
  | .rdbuf p => { op := 0x08#8, rsv := 0, a := p.extractLsb' 0 32, b := p.extractLsb' 32 32, c := 0 }

/-- The encoder: the word of an instruction. -/
def encode (i : Instr) : Word128 := i.command.toWord

/-- One row of opcode_table.json: a word `w` selects the row when `w &&& mask = pattern`. -/
structure OpcodeRow where
  mnemonic : String
  pattern  : Word128
  mask     : Word128
  deriving DecidableEq, Repr

/-- Whether a word selects a row: "(w & mask) = match" (30_encoding.md, opening). -/
def OpcodeRow.selects (row : OpcodeRow) (w : Word128) : Bool := decide (w &&& row.mask = row.pattern)

/-- The row of an instruction, as opcode_table.json gives it. -/
def Instr.row : Instr → OpcodeRow
  | .frame _ _ _ => ⟨"FRAME", 0x00000000000000000000000000000001#128, 0xFFFFFFFE0000000000000000FFFFFFFF#128⟩
  | .pixel _ _ _ => ⟨"PIXEL", 0x00000000000000000000000000000002#128, 0x000000000000000000000000FFFFFFFF#128⟩
  | .finish => ⟨"FINISH", 0x00000000000000000000000000000003#128, 0xFFFFFFFFFFFFFFFFFFFFFFFFFFFFFFFF#128⟩
  | .clear => ⟨"CLEAR", 0x00000000000000000000000000000004#128, 0xFFFFFFFFFFFFFFFFFFFFFFFFFFFFFFFF#128⟩
  | .rdstat => ⟨"RDSTAT", 0x00000000000000000000000000000005#128, 0xFFFFFFFFFFFFFFFFFFFFFFFFFFFFFFFF#128⟩
  | .rdcfg => ⟨"RDCFG", 0x00000000000000000000000000000006#128, 0xFFFFFFFFFFFFFFFFFFFFFFFFFFFFFFFF#128⟩
  | .rdcnt => ⟨"RDCNT", 0x00000000000000000000000000000007#128, 0xFFFFFFFFFFFFFFFFFFFFFFFFFFFFFFFF#128⟩
  | .rdbuf _ => ⟨"RDBUF", 0x00000000000000000000000000000008#128, 0xFFFFFFFF0000000000000000FFFFFFFF#128⟩

/-- The eight rows of opcode_table.json, in its order. -/
def opcodeTable : List OpcodeRow :=
  [Instr.row (.frame 0 0 .rgbm), Instr.row (.pixel 0 0 0), Instr.row .finish, Instr.row .clear, Instr.row .rdstat,
   Instr.row .rdcfg, Instr.row .rdcnt, Instr.row (.rdbuf 0)]

/-- The word whose low `nbits` bits are `w`, bit 0 least significant, and whose other bits are 0. A command is one
128-bit word without a byte serialisation (R52, R70, R79), so no byte order enters. Log 10. -/
def tableWord (nbits w : Nat) : Word128 := BitVec.ofNat 128 (w % 2 ^ nbits)

/-- What the decoder reads from a word numbered as spec/opcode_table.json numbers it. -/
def decodeTableWord (nbits w : Nat) : Option Instr := (decode (tableWord nbits w)).toOption

end Sys2Proof
end

