-- ==== Sys2Proof/Config.lean ====
section
/-! DEFINITION. What one build of the core fixes: the two parameters of 00_scope.md R7 and R8. -/

namespace Sys2Proof.Config

/-- The build parameters, "fixed for the life of the hardware and not held in any register" (R7, R8, R31).
The two bounds the rules put on them stand in the type, so that no build without them can be written. -/
structure Build where
  /-- RANGE (R7): the largest radiance the encoding is calibrated for. -/
  range : Rat
  /-- RB_PIXELS (R8): the capacity of the raster buffer in pixels. -/
  rbPixels : Nat
  range_pos : 0 < range
  rbPixels_lt : rbPixels < 2 ^ 64
  deriving DecidableEq, Repr

/-- The build of State.reset. RANGE is the spec's default, exactly 6 (R7). RB_PIXELS is OPEN (R8, D8): 2^20 is the
value of the spec's examples. DESIGN CHOICE, log 2. -/
def defaultBuild : Build :=
  { range := 6, rbPixels := 2 ^ 20, range_pos := by decide, rbPixels_lt := by decide }

end Sys2Proof.Config
end

