-- ==== Sys2Proof/Machine/State.lean ====
section
/-! DEFINITION. The state of the core, the two ports, the reasons a step can stop, and reset: 10_state.md R20 to R34,
30_encoding.md R70, R74, R75, 70_reset_and_hazards.md R220, R221. -/

namespace Sys2Proof.Machine

/-- The frame state STATE (R23): "Every 2-bit value is legal". -/
inductive FrameState where
  /-- No frame; after reset or CLEAR. -/
  | idle
  /-- A frame is open; PIXEL and FINISH are accepted. -/
  | active
  /-- The last frame passed its length check; RDBUF may read its raster. -/
  | done
  /-- The last frame faulted; ERR says why. -/
  | error
  deriving DecidableEq, Repr

/-- The frame-fault code ERR (R28). Values 4 to 15 "are reserved and never produced": they have no constructor
(X8, log 17). -/
inductive Err where
  | none
  /-- ERR_INPUT. -/
  | input
  /-- ERR_OVERRUN. -/
  | overrun
  /-- ERR_LENGTH. -/
  | length
  deriving DecidableEq, Repr

/-- The response code RESP (R75). Values 5 to 15 are "never produced": they have no constructor (X8, log 17). -/
inductive RespCode where
  | ok
  | illegal
  | wrongState
  | badArg
  | fault
  deriving DecidableEq, Repr

/-- The fields of the STATUS word (R29), which is assembled from the registers and is no register of its own. Its
reserved bits have no field: no state has them nonzero (X9, log 17). -/
structure Status where
  st   : FrameState
  fmt  : Fmt
  zero : Bool
  oor  : Bool
  sat  : Bool
  err  : Err
  deriving DecidableEq, Repr

/-- The fields of a response word (R74). -/
structure Response where
  resp   : RespCode
  status : Status
  data   : Word64
  deriving DecidableEq, Repr

/-- What the host can do to the core next (R20, R203, R220, R221). -/
inductive HostInput where
  /-- Send a command word, and wait for its response (R223). -/
  | command (w : Word128)
  /-- Assert reset between commands (R220). `draw` is the byte array RB holds after it: "an arbitrary byte array" (R220),
  "a draw under no law" (X1), which no one chooses (log 7). -/
  | reset (draw : List Byte)
  /-- Assert reset while the command `w` is in progress (R221); `draw` as above. -/
  | resetDuring (w : Word128) (draw : List Byte)
  deriving DecidableEq, Repr

/-- The raster buffer, a whole byte array (R30): the bytes that are not 0, at strictly rising addresses. Every byte array
is one such list and only one. -/
abbrev Memory := List Host.Cell

/-- What an unlisted address reads as. It is the byte the list leaves out, not what RB holds after reset: that is any
array (R34, R220, X1, log 5). -/
def Memory.unlisted : Byte := 0

/-- The canonical form of the raster buffer: addresses strictly rising, and no entry that an unlisted address would
already read as. -/
abbrev Memory.wf (m : Memory) : Prop := m.Pairwise (fun x y => x.1 < y.1) ∧ ∀ c ∈ m, c.2 ≠ Memory.unlisted

/-- The raster buffer that holds these bytes from address `a` on. -/
def Memory.ofBytes (a : Nat) : List Byte → Memory
  | [] => []
  | b :: rest => if b = Memory.unlisted then Memory.ofBytes (a + 1) rest else (a, b) :: Memory.ofBytes (a + 1) rest

/-- The whole machine: the registers of R23 to R28, the raster buffer of R30, the build parameters of R31 carried as a
read-only field (log 1), and the two ports. -/
structure State where
  /-- RANGE and RB_PIXELS (R7, R8, R31): no command writes them. -/
  build    : Config.Build
  /-- STATE (R23). -/
  st       : FrameState
  /-- WIDTH (R24). -/
  width    : Word32
  /-- HEIGHT (R24). -/
  height   : Word32
  /-- FMT (R25). -/
  fmt      : Fmt
  /-- IDX (R26). -/
  idx      : Word64
  /-- ZERO (R27). -/
  zero     : Bool
  /-- OOR (R27). -/
  oor      : Bool
  /-- SAT (R27). -/
  sat      : Bool
  /-- ERR (R28). -/
  err      : Err
  /-- RB (R30). -/
  rb       : Memory
  /-- The host's remaining actions, the one presented now first (log 3). -/
  inputs   : List HostInput
  /-- The response port (R74): the response to the last command since reset (log 4). -/
  response : Option Response
  deriving DecidableEq, Repr

/-- The core right after reset (R34, R220) in a given build, with a given host. RB is the array drawn, as far as RB
reaches (X1): every array of `4*RB_PIXELS` bytes is some draw. -/
def State.resetOf (build : Config.Build) (draw : List Byte) (inputs : List HostInput) : State :=
  { build := build, st := .idle, width := 0, height := 0, fmt := .rgbm, idx := 0, zero := false, oor := false,
    sat := false, err := .none, rb := Memory.ofBytes 0 (draw.take (4 * build.rbPixels)),
    inputs := inputs, response := none }

/-- The machine right after reset: the build of Config.defaultBuild (log 2), nothing listed in RB (log 5), nothing on the
command port (log 3). -/
def State.reset : State := State.resetOf Config.defaultBuild [] []

/-- Why a step stops with a fault. No command of a reachable state raises it (R56): it is for states that no run reaches,
and that no reachable state raises it is stated as an obligation. -/
inductive Fault where
  /-- Raised by PIXEL and RDBUF (through memWrite4, memRead4) on an address outside `0 .. 4*RB_PIXELS - 1`, which does
  not exist (R50). Safe: the model stops where the spec gives the hardware no behaviour (log 6). -/
  | rbNoSuchAddress
  deriving DecidableEq, Repr

/-- Why a step is refused. -/
inductive Refusal where
  /-- Raised by exec alone, for an instruction that has no meaning yet; no instruction of this model is one. Safe. -/
  | notModelled (mnemonic : String)
  deriving DecidableEq, Repr

end Sys2Proof.Machine
end

