-- ==== Sys2Proof/Machine/Memory.lean ====
section
/-! DEFINITION. The raster buffer as a list of (address, byte) pairs in canonical form: reading and writing a byte, and
the four-byte access that is the only one the core makes: 20_memory.md R50 to R54. -/

namespace Sys2Proof.Machine

/-- The byte at an address. -/
def Memory.read (m : Memory) (a : Nat) : Byte :=
  match m with
  | [] => Memory.unlisted
  | c :: rest => if c.1 = a then c.2 else Memory.read rest a

/-- Lists a byte, keeping the addresses strictly rising. -/
def Memory.insert (m : Memory) (a : Nat) (v : Byte) : Memory :=
  match m with
  | [] => [(a, v)]
  | c :: rest =>
    if a < c.1 then (a, v) :: c :: rest
    else if a = c.1 then (a, v) :: rest
    else c :: Memory.insert rest a v

/-- Takes an address out of the list. -/
def Memory.erase (m : Memory) (a : Nat) : Memory := m.filter (fun c => !decide (c.1 = a))

/-- Writes one byte, keeping the canonical form: the byte that an unlisted address reads as is not listed. -/
def Memory.write (m : Memory) (a : Nat) (v : Byte) : Memory :=
  if v = Memory.unlisted then m.erase a else m.insert a v

/-- Byte `j` of a 32-bit word, byte 0 being bits 7:0 (R52). -/
def byteOf (v : Word32) (j : Nat) : Byte := v.extractLsb' (8 * j) 8

/-- The word of four bytes, the first the least significant: `{b3, b2, b1, b0}` (R52). -/
def wordOfBytes (b0 b1 b2 b3 : Byte) : Word32 := b3 ++ b2 ++ b1 ++ b0

/-- Writes the four bytes of `v` at `a .. a+3`, the byte at `a` being `v[7:0]` (R52). -/
def Memory.write4 (m : Memory) (a : Nat) (v : Word32) : Memory :=
  (((m.write a (byteOf v 0)).write (a + 1) (byteOf v 1)).write (a + 2) (byteOf v 2)).write (a + 3) (byteOf v 3)

/-- Reads the four bytes at `a .. a+3` as a word (R52). -/
def Memory.read4 (m : Memory) (a : Nat) : Word32 :=
  wordOfBytes (m.read a) (m.read (a + 1)) (m.read (a + 2)) (m.read (a + 3))

end Sys2Proof.Machine
end

