-- ==== Sys2Proof/Machine/Operands.lean ====
section
/-! DEFINITION. The operands of PIXEL: decoding a binary32 pattern to an exact radiance (30_encoding.md R82) and the
pixel's validity (40_codec.md R100). FRAME's and RDBUF's operands are assembled by the decoder (R73). -/

namespace Sys2Proof.Machine

/-- A valid channel (R82, R100): an exact rational that is not negative, or PINF, above every rational. -/
inductive Radiance where
  | num (v : Rat)
  | pinf
  deriving DecidableEq, Repr

/-- Three values of one kind, in the order R, G, B of the Radiance Triple. -/
structure Rgb (α : Type) where
  r : α
  g : α
  b : α
  deriving DecidableEq, Repr

/-- The sign bit of a binary32 pattern (R82). -/
def binary32Sign (b : Word32) : BitVec 1 := b.extractLsb' 31 1

/-- The exponent field (R82). -/
def binary32Exp (b : Word32) : Nat := (b.extractLsb' 23 8).toNat

/-- The fraction field (R82). -/
def binary32Frac (b : Word32) : Nat := (b.extractLsb' 0 23).toNat

/-- The magnitude of a finite pattern, exactly: subnormals keep their value, with no flush to zero (R82). -/
def binary32Magnitude (b : Word32) : Rat :=
  if binary32Exp b = 0 then (binary32Frac b : Rat) * (2 : Rat) ^ (-149 : Int)
  else ((2 ^ 23 + binary32Frac b : Nat) : Rat) * (2 : Rat) ^ ((binary32Exp b : Int) - 150)

/-- The value of a pattern; `none` is INVALID: NaN, -Inf, and negative nonzero numbers (R82). -/
def val32 (b : Word32) : Option Radiance :=
  if binary32Exp b = 255 ∧ binary32Frac b ≠ 0 then none
  else if binary32Exp b = 255 ∧ binary32Sign b = 1 then none
  else if binary32Exp b = 255 then some .pinf
  else if binary32Sign b = 1 ∧ binary32Magnitude b ≠ 0 then none
  else some (.num (binary32Magnitude b))

/-- The pixel of three patterns, or none where a channel is INVALID (R100). -/
def pixelInput (a b c : Word32) : Option (Rgb Radiance) :=
  match val32 a, val32 b, val32 c with
  | some vr, some vg, some vb => some { r := vr, g := vg, b := vb }
  | _, _, _ => none

end Sys2Proof.Machine
end

