-- ==== Sys2Proof/Machine/Codec.lean ====
section
/-! DEFINITION. The pixel codec datapath as pure functions over exact rationals: the RGBM encoder, the saturating byte
cast, the quantizer, the reconstructor, and the pipeline of one pixel: 40_codec.md R101 to R114. -/

namespace Sys2Proof.Machine

/-- An RGBM Quadruple (R105): three scaled channels and the multiplier. -/
structure Quad where
  r : Rat
  g : Rat
  b : Rat
  m : Rat
  deriving DecidableEq, Repr

/-- A Byte Quadruple, component `j` being `qj` (R51). -/
structure ByteQuad where
  q0 : Byte
  q1 : Byte
  q2 : Byte
  q3 : Byte
  deriving DecidableEq, Repr

/-- `{q_3, q_2, q_1, q_0}` (R52, R113). -/
def ByteQuad.word (q : ByteQuad) : Word32 := wordOfBytes q.q0 q.q1 q.q2 q.q3

/-- Clamps a channel to RANGE (R101). -/
def clampRange (range : Rat) : Radiance → Rat
  | .pinf => range
  | .num v => if v > range then range else v

/-- The clamped channels `c_i` of a pixel (R101). -/
def clampPixel (range : Rat) (v : Rgb Radiance) : Rgb Rat :=
  { r := clampRange range v.r, g := clampRange range v.g, b := clampRange range v.b }

/-- The normalized channels `n_i = c_i / RANGE` (R101). -/
def normalizePixel (range : Rat) (c : Rgb Rat) : Rgb Rat := { r := c.r / range, g := c.g / range, b := c.b / range }

/-- `peak = max(nR, nG, nB)` (R102). -/
def peakOf (n : Rgb Rat) : Rat := max n.r (max n.g n.b)

/-- `k0 = ceil(peak * 255)` (R103). -/
def rawCode (peak : Rat) : Int := ⌈peak * 255⌉

/-- `zero_px`: the pixel is degenerate (R103). -/
def zeroPixel (peak : Rat) : Bool := decide (rawCode peak = 0)

/-- The multiplier code `k`, with the zero clamp (R103). -/
def multCode (peak : Rat) : Int := if zeroPixel peak then 1 else rawCode peak

/-- `m = k / 255` (R104). -/
def multiplierOf (k : Int) : Rat := k / 255

/-- The RGBM Quadruple of normalized channels (R102 to R105). -/
def quadOf (n : Rgb Rat) : Quad :=
  let m := multiplierOf (multCode (peakOf n))
  { r := n.r / m, g := n.g / m, b := n.b / m, m := m }

/-- The RGBM encoder (R101 to R105). -/
def rgbmEncode (range : Rat) (v : Rgb Radiance) : Quad := quadOf (normalizePixel range (clampPixel range v))

/-- A channel is above RANGE before the clamp (R106). -/
def aboveRange (range : Rat) : Radiance → Bool
  | .pinf => true
  | .num v => decide (v > range)

/-- `oor_px`: some channel is above RANGE (R106). -/
def outOfRange (range : Rat) (v : Rgb Radiance) : Bool :=
  aboveRange range v.r || aboveRange range v.g || aboveRange range v.b

/-- The saturating byte cast `sat8` (R108). -/
def sat8 (u : Int) : Byte := if u > 255 then 255 else if u < 0 then 0 else BitVec.ofNat 8 u.toNat

/-- `satd`: this cast saturated (R108). -/
def satd (u : Int) : Bool := decide (u > 255)

/-- `ceil(x * 255)`, the quantizer's integer (R109). -/
def quantizeInt (x : Rat) : Int := ⌈x * 255⌉

/-- The 8-bit quantizer (R109). -/
def quantize (q : Quad) : ByteQuad :=
  { q0 := sat8 (quantizeInt q.r), q1 := sat8 (quantizeInt q.g), q2 := sat8 (quantizeInt q.b),
    q3 := sat8 (quantizeInt q.m) }

/-- The quantizer's `sat_px` (R109). -/
def quantizeSat (q : Quad) : Bool :=
  satd (quantizeInt q.r) || satd (quantizeInt q.g) || satd (quantizeInt q.b) || satd (quantizeInt q.m)

/-- `floor(x * RANGE * m * 255)`, the reconstructor's integer (R111). -/
def reconstructInt (range m x : Rat) : Int := ⌊x * range * m * 255⌋

/-- The RGBA reconstructor; the 4th slot is always 255 (R111). -/
def reconstruct (range : Rat) (q : Quad) : ByteQuad :=
  { q0 := sat8 (reconstructInt range q.m q.r), q1 := sat8 (reconstructInt range q.m q.g),
    q2 := sat8 (reconstructInt range q.m q.b), q3 := 255 }

/-- The reconstructor's `sat_px`; the 4th slot contributes nothing (R111). -/
def reconstructSat (range : Rat) (q : Quad) : Bool :=
  satd (reconstructInt range q.m q.r) || satd (reconstructInt range q.m q.g) || satd (reconstructInt range q.m q.b)

/-- The Byte Quadruple of a pixel in the frame's format (R113, R114). -/
def pixelBytes (range : Rat) (fmt : Fmt) (v : Rgb Radiance) : ByteQuad :=
  match fmt with
  | .rgbm => quantize (rgbmEncode range v)
  | .rgba => reconstruct range (rgbmEncode range v)

/-- The pixel's `zero_px` (R103, R114), the same in both formats (R106). -/
def pixelZero (range : Rat) (v : Rgb Radiance) : Bool := zeroPixel (peakOf (normalizePixel range (clampPixel range v)))

/-- The pixel's `sat_px` in the frame's format (R114). -/
def pixelSat (range : Rat) (fmt : Fmt) (v : Rgb Radiance) : Bool :=
  match fmt with
  | .rgbm => quantizeSat (rgbmEncode range v)
  | .rgba => reconstructSat range (rgbmEncode range v)

end Sys2Proof.Machine
end

