-- ==== Sys2Proof/Machine/Flags.lean ====
section
/-! DEFINITION. The STATUS word and the response word with every code's bits, and the sticky frame flags: 10_state.md
R23 to R29, 30_encoding.md R74, R75, 40_codec.md R114. -/

namespace Sys2Proof.Machine

/-- The value of STATE (R23). -/
def FrameState.code : FrameState → BitVec 2
  | .idle => 0
  | .active => 1
  | .done => 2
  | .error => 3

/-- The value of ERR (R28). -/
def Err.code : Err → BitVec 4
  | .none => 0
  | .input => 1
  | .overrun => 2
  | .length => 3

/-- The value of RESP (R75). -/
def RespCode.code : RespCode → BitVec 4
  | .ok => 0
  | .illegal => 1
  | .wrongState => 2
  | .badArg => 3
  | .fault => 4

/-- `STATUS = zext_32({ERR[3:0], 00b, SAT, OOR, ZERO, FMT, STATE[1:0]})` (R29). -/
def Status.word (t : Status) : Word32 :=
  (t.err.code ++ 0#2 ++ BitVec.ofBool t.sat ++ BitVec.ofBool t.oor ++ BitVec.ofBool t.zero ++ t.fmt.bit ++
    t.st.code).setWidth 32

/-- `{0[27:0], resp[3:0], STATUS[31:0], data[63:0]}` (R74). -/
def Response.word (r : Response) : Word128 := 0#28 ++ r.resp.code ++ r.status.word ++ r.data

/-- The STATUS fields of a state (R29). -/
def State.status (s : State) : Status :=
  { st := s.st, fmt := s.fmt, zero := s.zero, oor := s.oor, sat := s.sat, err := s.err }

/-- ORs a pixel's `zero_px`, `oor_px` and `sat_px` into the sticky flags (R27, R114). -/
def State.orFlags (s : State) (v : Rgb Radiance) : State :=
  { s with
    zero := s.zero || pixelZero s.build.range v
    oor := s.oor || outOfRange s.build.range v
    sat := s.sat || pixelSat s.build.range s.fmt v }

end Sys2Proof.Machine
end

