-- ==== Sys2Proof/Machine/Ops.lean ====
section
/-! DEFINITION. The shared operations: raster-buffer accesses with their bounds, the response, the rejection, the frame
fault (the core's only trap-like event), reset, and what the host presents next: 20_memory.md R50 to R54, 30_encoding.md
R74, 60_exceptions.md R190 to R195, 70_reset_and_hazards.md R220, R221. There is no return from a frame fault (R195). -/

namespace Sys2Proof.Machine

/-- `WIDTH * HEIGHT`, exactly: nothing wraps (R10, R140). -/
def State.area (s : State) : Nat := s.width.toNat * s.height.toNat

/-- The four bytes at `a .. a+3` exist: the space is `0 .. 4*RB_PIXELS - 1` (R50). -/
def State.addressable (s : State) (a : Nat) : Bool := decide (a + 4 ≤ 4 * s.build.rbPixels)

/-- `MemRead(a, 4)` (R12, R52, R54). -/
def memRead4 (s : State) (a : Nat) : Except Fault Word32 :=
  if s.addressable a then .ok (s.rb.read4 a) else .error .rbNoSuchAddress

/-- `MemWrite(a, 4, v)` (R12, R52, R54). -/
def memWrite4 (s : State) (a : Nat) (v : Word32) : Except Fault State :=
  if s.addressable a then .ok { s with rb := s.rb.write4 a v } else .error .rbNoSuchAddress

/-- `respond(resp, data)`: the response carries the STATUS "as it stands after the command's effects" (R29, R74). -/
def respond (resp : RespCode) (data : Word64) (s : State) : State :=
  { s with response := some { resp := resp, status := s.status, data := data } }

/-- `raise Reject(code)`: a response and no state change (R190). -/
def reject (code : RespCode) (s : State) : State := respond code 0 s

/-- `raise FrameFault(code)`: STATE becomes ERROR, ERR the code, nothing else changes (R192, R194). -/
def frameFault (code : Err) (s : State) : State := respond .fault 0 { s with st := .error, err := code }

/-- Reset: every register at its reset value, RB any array, the one drawn, no response (R220, R221). The build stays, being
fixed in the hardware (R222), and so does what the host does next. -/
def takeReset (draw : List Byte) (s : State) : State := State.resetOf s.build draw s.inputs

/-- What the core finds at its inputs. -/
inductive Fetch where
  /-- Nothing is presented. -/
  | idle
  /-- Reset is asserted; RB will hold this array. -/
  | reset (draw : List Byte)
  /-- A word that is no command. -/
  | illegal (why : DecodeError)
  /-- A command. -/
  | run (i : Instr)
  deriving DecidableEq, Repr

/-- Takes one command word (R79): a command, or the reason it is none (R77). -/
def fetchWord (w : Word128) : Fetch :=
  match decode w with
  | .ok i => .run i
  | .error e => .illegal e

/-- What the host presents now. A command cut by reset has no effect: what is left of it is the reset (R221). -/
def fetch (s : State) : Fetch :=
  match s.inputs with
  | [] => .idle
  | .reset draw :: _ => .reset draw
  | .resetDuring _ draw :: _ => .reset draw
  | .command w :: _ => fetchWord w

/-- The state once what the host presented is taken: the host goes on to its next action. -/
def consume (s : State) : State := { s with inputs := s.inputs.tail }

/-- A host that sends these commands, one after another, each after the previous response (R223). -/
def sendAll (program : List Instr) : List HostInput := program.map (fun i => .command (encode i))

/-- The bytes of RB at the `n` addresses from `a` on. -/
def readBytes (s : State) (a n : Nat) : List Byte := (List.range n).map (fun j => s.rb.read (a + j))

/-- The raster a frame has produced, if it has produced one: "if and only if it reached DONE. The raster is then RB bytes
`0 .. 4*WIDTH*HEIGHT - 1`" (R204). -/
def State.raster (s : State) : Option (List Byte) := if s.st = .done then some (readBytes s 0 (4 * s.area)) else none

end Sys2Proof.Machine
end

