-- ==== Sys2Proof/Machine/FrameCommands.lean ====
section
/-! DEFINITION. The frame commands FRAME, PIXEL, FINISH and CLEAR: 41_frame_commands.md R140 to R143, and the packing of a
pixel: 40_codec.md R113, R114. In each, "the checks run in the order written and the first failing check ends the
command"; the first check, ILLEGAL, is made when the word is decoded. -/

namespace Sys2Proof.Machine

/-- FRAME: open a frame (R140). RB is not cleared. -/
def execFrame (width height : Word32) (fmt : Fmt) (s : State) : Host.Outcome State Fault Refusal :=
  if s.st = .active then .next (reject .wrongState s)
  else if width.toNat * height.toNat > s.build.rbPixels then .next (reject .badArg s)
  else .next (respond .ok 0
    { s with
      st := .active, width := width, height := height, fmt := fmt, idx := 0, zero := false, oor := false, sat := false,
      err := .none })

/-- PixelOp: writes the pixel's four bytes at `4*IDX` and ORs its flags (R113, R114). -/
def pixelOp (v : Rgb Radiance) (s : State) : Except Fault State :=
  memWrite4 (s.orFlags v) (4 * s.idx.toNat) (pixelBytes s.build.range s.fmt v).word

/-- The accepted PIXEL: pack, count, answer with the packed bytes (R76, R141). -/
def packPixel (v : Rgb Radiance) (s : State) : Host.Outcome State Fault Refusal :=
  match pixelOp v s with
  | .error f => .fault f
  | .ok t => .next (respond .ok ((pixelBytes s.build.range s.fmt v).word.setWidth 64) { t with idx := t.idx + 1 })

/-- PIXEL: encode and pack one pixel (R141). -/
def execPixel (r g b : Word32) (s : State) : Host.Outcome State Fault Refusal :=
  if s.st ≠ .active then .next (reject .wrongState s)
  else if s.idx.toNat = s.area then .next (frameFault .overrun s)
  else match pixelInput r g b with
    | none => .next (frameFault .input s)
    | some v => packPixel v s

/-- FINISH: close a frame with its length check (R142). -/
def execFinish (s : State) : Host.Outcome State Fault Refusal :=
  if s.st ≠ .active then .next (reject .wrongState s)
  else if s.idx.toNat ≠ s.area then .next (frameFault .length s)
  else .next (respond .ok 0 { s with st := .done })

/-- CLEAR: abandon any frame and return to IDLE (R143). RB is not changed. -/
def execClear (s : State) : Host.Outcome State Fault Refusal :=
  .next (respond .ok 0
    { s with
      st := .idle, width := 0, height := 0, fmt := .rgbm, idx := 0, zero := false, oor := false, sat := false,
      err := .none })

end Sys2Proof.Machine
end

