-- ==== Sys2Proof/Machine/ReadCommands.lean ====
section
/-! DEFINITION. The read commands RDSTAT, RDCFG, RDCNT and RDBUF: 42_read_commands.md R170 to R173. "No command in this
file changes any state": each leaves only its response. -/

namespace Sys2Proof.Machine

/-- RDSTAT: STATUS is in every response (R170). -/
def execRdstat (s : State) : Host.Outcome State Fault Refusal := .next (respond .ok 0 s)

/-- RDCFG: `{HEIGHT, WIDTH}` (R171). -/
def execRdcfg (s : State) : Host.Outcome State Fault Refusal := .next (respond .ok (s.height ++ s.width) s)

/-- RDCNT: IDX (R172). -/
def execRdcnt (s : State) : Host.Outcome State Fault Refusal := .next (respond .ok s.idx s)

/-- RDBUF: the pixel of the finished raster at a 64-bit index (R173). -/
def execRdbuf (p : Word64) (s : State) : Host.Outcome State Fault Refusal :=
  if s.st ≠ .done then .next (reject .wrongState s)
  else if p.toNat ≥ s.area then .next (reject .badArg s)
  else match memRead4 s (4 * p.toNat) with
    | .error f => .fault f
    | .ok v => .next (respond .ok (v.setWidth 64) s)

end Sys2Proof.Machine
end

