-- ==== Sys2Proof/Machine/Dispatch.lean ====
section
/-! DEFINITION. One arm for each command of spec/opcode_table.json. -/

namespace Sys2Proof.Machine

def exec (i : Instr) (s : State) : Host.Outcome State Fault Refusal :=
  match i with
  | .frame width height fmt => Sys2Proof.Machine.execFrame width height fmt s
  | .pixel r g b => Sys2Proof.Machine.execPixel r g b s
  | .finish => Sys2Proof.Machine.execFinish s
  | .clear => Sys2Proof.Machine.execClear s
  | .rdstat => Sys2Proof.Machine.execRdstat s
  | .rdcfg => Sys2Proof.Machine.execRdcfg s
  | .rdcnt => Sys2Proof.Machine.execRdcnt s
  | .rdbuf index => Sys2Proof.Machine.execRdbuf index s

end Sys2Proof.Machine
end

