-- ==== Sys2Proof/Machine/Step.lean ====
section
/-! DEFINITION. One step of the machine: the core takes what the host presents, whole (R20, R54, R223). -/

namespace Sys2Proof.Machine

/-- Nothing presented: the core "holds its state unchanged" (R202). Reset: R220, R221. A word that is no command is
rejected with ILLEGAL (R77). A command is executed. -/
def step (s : State) : Host.Outcome State Fault Refusal :=
  match fetch s with
  | .idle => .next s
  | .reset draw => .next (takeReset draw (consume s))
  | .illegal _ => .next (reject .illegal (consume s))
  | .run i => exec i (consume s)

/-- The state in which the host presents this word first and then goes on as before (log 3, log 10). -/
def State.withFetchWord (s : State) (nbits w : Nat) : State :=
  { s with inputs := .command (tableWord nbits w) :: s.inputs }

end Sys2Proof.Machine
end

