-- ==== Sys2Proof/Machine/Assembler.lean ====
section
/-! DEFINITION. The assembler syntax of 30_encoding.md R80 and the pseudo-instructions of R81, over text as a list of
characters. R80 leaves lexical details open: log 15 lists the choices made here. -/

namespace Sys2Proof.Machine

/-- Why a line is refused by the assembler. -/
inductive AsmError where
  | mnemonic
  | operandCount
  /-- An operand that is no integer where one is wanted. -/
  | integer
  /-- "in range for their field, and otherwise refused by the assembler". -/
  | range
  /-- Neither rgbm nor rgba. -/
  | format
  /-- Neither a pattern nor a decimal literal. -/
  | channel
  /-- "A decimal literal must be exactly representable in binary32, and the assembler refuses any other". -/
  | inexact
  deriving DecidableEq, Repr

def isBlank (c : Char) : Bool := decide (c = ' ') || decide (c = '\t') || decide (c = '\r')

def trimBlanks (l : List Char) : List Char := (((l.dropWhile isBlank).reverse).dropWhile isBlank).reverse

/-- The pieces of a text between the occurrences of a separator. -/
def splitOnChar (sep : Char) : List Char → List (List Char)
  | [] => [[]]
  | c :: rest =>
    if c = sep then [] :: splitOnChar sep rest
    else match splitOnChar sep rest with
      | [] => [[c]]
      | piece :: more => (c :: piece) :: more

/-- The value of a digit, hexadecimal letters in either case. -/
def digitValue (c : Char) : Option Nat :=
  if '0' ≤ c ∧ c ≤ '9' then some (c.toNat - '0'.toNat)
  else if 'a' ≤ c ∧ c ≤ 'f' then some (c.toNat - 'a'.toNat + 10)
  else if 'A' ≤ c ∧ c ≤ 'F' then some (c.toNat - 'A'.toNat + 10)
  else none

def digitsFrom (base acc : Nat) : List Char → Option Nat
  | [] => some acc
  | c :: rest =>
    match digitValue c with
    | some d => if d < base then digitsFrom base (acc * base + d) rest else none
    | none => none

/-- A number in a base, of one digit or more. -/
def parseDigits (base : Nat) (l : List Char) : Option Nat := if l = [] then none else digitsFrom base 0 l

/-- "Integer operands are decimal or `0x` hexadecimal" (R80). -/
def parseInteger : List Char → Option Nat
  | '0' :: 'x' :: rest => parseDigits 16 rest
  | l => parseDigits 10 l

def integerOperand (bits : Nat) (l : List Char) : Except AsmError Nat :=
  match parseInteger l with
  | none => .error .integer
  | some n => if n < 2 ^ bits then .ok n else .error .range

/-- A decimal literal without its sign: digits, or digits, a point and digits. -/
def parseMagnitude (l : List Char) : Option Rat :=
  match splitOnChar '.' l with
  | [whole] => (parseDigits 10 whole).map (fun n => (n : Rat))
  | [whole, part] =>
    match parseDigits 10 whole, parseDigits 10 part with
    | some n, some k => some ((n : Rat) + (k : Rat) / ((10 ^ part.length : Nat) : Rat))
    | _, _ => none
  | _ => none

/-- The fraction field with which exponent field `e` gives the magnitude `v` exactly, if there is one (R82). -/
def fractionFor (v : Rat) (e : Nat) : Option Nat :=
  if e = 0 then
    let x := v * (2 : Rat) ^ (149 : Int)
    if x.den = 1 ∧ 0 ≤ x ∧ x < 2 ^ 23 then some x.num.toNat else none
  else
    let x := v * (2 : Rat) ^ ((150 : Int) - e)
    if x.den = 1 ∧ 2 ^ 23 ≤ x ∧ x < 2 ^ 24 then some (x.num.toNat - 2 ^ 23) else none

/-- The binary32 pattern of a sign and a magnitude, if it is exactly representable (R80, R82). -/
def exactBinary32 (negative : Bool) (v : Rat) : Option Word32 :=
  (List.range 255).findSome? (fun e =>
    (fractionFor v e).map (fun f => BitVec.ofBool negative ++ BitVec.ofNat 8 e ++ BitVec.ofNat 23 f))

def decimalOperand (negative : Bool) (l : List Char) : Except AsmError Word32 :=
  match parseMagnitude l with
  | none => .error .channel
  | some v =>
    match exactBinary32 negative v with
    | none => .error .inexact
    | some w => .ok w

/-- A PIXEL channel: "a 32-bit `0x` pattern, taken as is, or a decimal literal" (R80). -/
def channelOperand : List Char → Except AsmError Word32
  | '0' :: 'x' :: rest =>
    match parseDigits 16 rest with
    | none => .error .channel
    | some n => if n < 2 ^ 32 then .ok (BitVec.ofNat 32 n) else .error .range
  | '-' :: rest => decimalOperand true rest
  | l => decimalOperand false l

def formatOperand (l : List Char) : Except AsmError Fmt :=
  if l = ['r', 'g', 'b', 'm'] then .ok .rgbm
  else if l = ['r', 'g', 'b', 'a'] then .ok .rgba
  else .error .format

def assembleFrame : List (List Char) → Except AsmError Instr
  | [w, h, f] =>
    match integerOperand 32 w, integerOperand 32 h, formatOperand f with
    | .ok w, .ok h, .ok f => .ok (.frame (BitVec.ofNat 32 w) (BitVec.ofNat 32 h) f)
    | .error e, _, _ => .error e
    | _, .error e, _ => .error e
    | _, _, .error e => .error e
  | _ => .error .operandCount

def assemblePixel : List (List Char) → Except AsmError Instr
  | [r, g, b] =>
    match channelOperand r, channelOperand g, channelOperand b with
    | .ok r, .ok g, .ok b => .ok (.pixel r g b)
    | .error e, _, _ => .error e
    | _, .error e, _ => .error e
    | _, _, .error e => .error e
  | _ => .error .operandCount

def assembleRdbuf : List (List Char) → Except AsmError Instr
  | [p] =>
    match integerOperand 64 p with
    | .ok p => .ok (.rdbuf (BitVec.ofNat 64 p))
    | .error e => .error e
  | _ => .error .operandCount

def assemblePlain (i : Instr) : List (List Char) → Except AsmError Instr
  | [] => .ok i
  | _ :: _ => .error .operandCount

/-- A mnemonic with its operands (R80, R81). -/
def assembleCommand (m : List Char) (operands : List (List Char)) : Except AsmError Instr :=
  if m = ['F', 'R', 'A', 'M', 'E'] then assembleFrame operands
  else if m = ['P', 'I', 'X', 'E', 'L'] then assemblePixel operands
  else if m = ['F', 'I', 'N', 'I', 'S', 'H'] then assemblePlain .finish operands
  else if m = ['C', 'L', 'E', 'A', 'R'] then assemblePlain .clear operands
  else if m = ['R', 'D', 'S', 'T', 'A', 'T'] then assemblePlain .rdstat operands
  else if m = ['R', 'D', 'C', 'F', 'G'] then assemblePlain .rdcfg operands
  else if m = ['R', 'D', 'C', 'N', 'T'] then assemblePlain .rdcnt operands
  else if m = ['R', 'D', 'B', 'U', 'F'] then assembleRdbuf operands
  else if m = ['N', 'O', 'P'] then assemblePlain .nop operands
  else if m = ['B', 'L', 'A', 'C', 'K'] then assemblePlain .black operands
  else .error .mnemonic

/-- The operands of a line's tail: "comma-separated". -/
def operandsOf (tail : List Char) : List (List Char) :=
  if trimBlanks tail = [] then [] else (splitOnChar ',' tail).map trimBlanks

/-- One line: at most one command; "`;` starts a comment" (R80). -/
def assembleLine (line : List Char) : Except AsmError (Option Instr) :=
  let body := trimBlanks (line.takeWhile (fun c => !decide (c = ';')))
  if body = [] then .ok none
  else
    (assembleCommand (body.takeWhile (fun c => !isBlank c)) (operandsOf (body.dropWhile (fun c => !isBlank c)))).map some

def assembleLines : List (List Char) → Except AsmError (List Instr)
  | [] => .ok []
  | l :: rest =>
    match assembleLine l, assembleLines rest with
    | .ok none, .ok is => .ok is
    | .ok (some i), .ok is => .ok (i :: is)
    | .error e, _ => .error e
    | _, .error e => .error e

/-- A program text: "one command per line" (R80). -/
def assemble (text : List Char) : Except AsmError (List Instr) := assembleLines (splitOnChar '\n' text)

end Sys2Proof.Machine
end

