-- ==== Sys2Proof/Safety.lean ====
section
/-! DEFINITION. What a safe run is: the invariant of the core's state (10_state.md R26, R28, R30, R34, 30_encoding.md R74,
20_memory.md R50, R55), the reachable states, and the states whose step does not stop. -/

namespace Sys2Proof.Machine

/-- What every reachable state satisfies. -/
structure State.Inv (s : State) : Prop where
  /-- "IDX <= WIDTH * HEIGHT whenever STATE is ACTIVE, DONE or ERROR" (R26). -/
  idx_le : s.st ≠ .idle → s.idx.toNat ≤ s.area
  /-- "In DONE, IDX = WIDTH * HEIGHT" (R26). -/
  done_full : s.st = .done → s.idx.toNat = s.area
  /-- The frame fits the raster buffer (R24, R55). -/
  fits : s.area ≤ s.build.rbPixels
  /-- "ERR != 0 if and only if STATE = ERROR" (R28). -/
  err_iff : s.err ≠ .none ↔ s.st = .error
  /-- In IDLE, "after reset or CLEAR" (R23), every register has its reset value (R34, R143). -/
  idle_clear : s.st = .idle →
    s.width = 0 ∧ s.height = 0 ∧ s.fmt = .rgbm ∧ s.idx = 0 ∧ s.zero = false ∧ s.oor = false ∧ s.sat = false
  /-- RB keeps its canonical form. -/
  rb_wf : Memory.wf s.rb
  /-- Every byte that is listed lies in the address space (R50). -/
  rb_inside : ∀ c ∈ s.rb, c.1 < 4 * s.build.rbPixels
  /-- The last response carries the STATUS as it stands, and DATA only with OK (R29, R74, R76). -/
  response_fresh : ∀ r, s.response = some r → r.status = s.status ∧ (r.resp ≠ .ok → r.data = 0)

/-- R190: a rejected command leaves its response, and nothing else. -/
def State.rejected (s : State) (code : RespCode) : State :=
  { s with response := some { resp := code, status := s.status, data := 0 } }

/-- R192: what a frame fault leaves. -/
def State.faulted (s : State) (code : Err) : State :=
  { s with
    st := .error, err := code,
    response := some { resp := .fault, status := { s.status with st := .error, err := code }, data := 0 } }

/-- The host presents the word `w` and then goes on with `rest`. -/
def State.Sends (s : State) (w : Word128) (rest : List HostInput) : Prop := s.inputs = .command w :: rest

/-- The host asserts reset, between commands or during one, and then goes on with `rest`; RB will hold `draw`. -/
def State.Resets (s : State) (draw : List Byte) (rest : List HostInput) : Prop :=
  s.inputs = .reset draw :: rest ∨ ∃ w, s.inputs = .resetDuring w draw :: rest

/-- The table of R145, cell by cell: STATE, RESP and ERR after a command, from the state before it. -/
def transition (i : Instr) (s : State) : FrameState × RespCode × Err :=
  match i, s.st with
  | .frame _ _ _, .active => (.active, .wrongState, s.err)
  | .frame w h _, .idle => if s.build.rbPixels < w.toNat * h.toNat then (.idle, .badArg, s.err) else (.active, .ok, .none)
  | .frame w h _, .done => if s.build.rbPixels < w.toNat * h.toNat then (.done, .badArg, s.err) else (.active, .ok, .none)
  | .frame w h _, .error =>
    if s.build.rbPixels < w.toNat * h.toNat then (.error, .badArg, s.err) else (.active, .ok, .none)
  | .pixel a b c, .active =>
    if s.idx.toNat < s.area then
      if (val32 a).isSome && (val32 b).isSome && (val32 c).isSome then (.active, .ok, s.err) else (.error, .fault, .input)
    else (.error, .fault, .overrun)
  | .pixel _ _ _, .idle => (.idle, .wrongState, s.err)
  | .pixel _ _ _, .done => (.done, .wrongState, s.err)
  | .pixel _ _ _, .error => (.error, .wrongState, s.err)
  | .finish, .active => if s.idx.toNat < s.area then (.error, .fault, .length) else (.done, .ok, s.err)
  | .finish, .idle => (.idle, .wrongState, s.err)
  | .finish, .done => (.done, .wrongState, s.err)
  | .finish, .error => (.error, .wrongState, s.err)
  | .clear, _ => (.idle, .ok, .none)
  | .rdstat, st => (st, .ok, s.err)
  | .rdcfg, st => (st, .ok, s.err)
  | .rdcnt, st => (st, .ok, s.err)
  | .rdbuf p, .done => if p.toNat < s.area then (.done, .ok, s.err) else (.done, .badArg, s.err)
  | .rdbuf _, .idle => (.idle, .wrongState, s.err)
  | .rdbuf _, .active => (.active, .wrongState, s.err)
  | .rdbuf _, .error => (.error, .wrongState, s.err)

/-- `k` steps, stopping at the first that does not answer a next state. -/
def run : Nat → State → Host.Outcome State Fault Refusal
  | 0, s => .next s
  | k + 1, s =>
    match Sys2Proof.Machine.step s with
    | .next t => run k t
    | .fault f => .fault f
    | .refused r => .refused r

/-- The states of runs from reset, of any build, with any bytes in RB and with any host: any commands, well-formed or not,
and resets. -/
inductive Reachable : State → Prop where
  | reset (build : Config.Build) (draw : List Byte) (inputs : List HostInput) :
    Reachable (State.resetOf build draw inputs)
  | step (s t : State) : Reachable s → Sys2Proof.Machine.step s = .next t → Reachable t

/-- A host action without what RB is drawn to be. -/
def HostInput.forgetDraw : HostInput → HostInput
  | .command w => .command w
  | .reset _ => .reset []
  | .resetDuring w _ => .resetDuring w []

/-- Two states that no observer of the responses may tell apart: they differ only in bytes of RB that the current frame has
not written (R30, X1, X2), and in what later resets draw. -/
structure State.Alike (s t : State) : Prop where
  build    : s.build = t.build
  st       : s.st = t.st
  width    : s.width = t.width
  height   : s.height = t.height
  fmt      : s.fmt = t.fmt
  idx      : s.idx = t.idx
  zero     : s.zero = t.zero
  oor      : s.oor = t.oor
  sat      : s.sat = t.sat
  err      : s.err = t.err
  response : s.response = t.response
  inputs   : s.inputs.map HostInput.forgetDraw = t.inputs.map HostInput.forgetDraw
  written  : ∀ a, a < 4 * s.idx.toNat → s.rb.read a = t.rb.read a

/-- The step of this state goes on: it neither faults nor is refused. -/
def State.Safe (s : State) : Prop := ∃ t, Sys2Proof.Machine.step s = .next t

end Sys2Proof.Machine
end

