-- ==== Sys2Proof/Certificates/Slice0/Obligations.lean ====
section
/-! DEFINITION. What is to be proved of the model. Each statement's docstring names the rules of spec/ it formalises. The
statements quantify over every state, and so over every build: State.build is arbitrary (log 1). -/

open Sys2Proof Sys2Proof.Machine

/-! ## Encoding -/

/-- No bit of an encoding is dropped: decoding the word of an instruction gives it back (R70, R71, R73). -/
def Obligations.DecodeOfEncodeIsInstruction : Prop :=
  ∀ i : Instr, decode (encode i) = .ok i

/-- The other direction: a word that decodes is the word of the instruction it decodes to (R70 to R73). -/
def Obligations.EncodeOfDecodeIsWord : Prop :=
  ∀ (w : Word128) (i : Instr), decode w = .ok i → encode i = w

/-- R72, on the bits of the word: exactly the words of the rule are well-formed, exactly those decode, and every other
word is answered with ILLEGAL. -/
def Obligations.WellFormedWordsAreTheOnesThatDecode : Prop :=
  ∀ w : Word128,
    ((Command.ofWord w).wellFormed = true ↔
      w.extractLsb' 8 24 = 0 ∧
        ((w.extractLsb' 0 8 = 0x01#8 ∧ w.extractLsb' 97 31 = 0) ∨
         w.extractLsb' 0 8 = 0x02#8 ∨
         (w.extractLsb' 0 8 ∈ [0x03#8, 0x04#8, 0x05#8, 0x06#8, 0x07#8] ∧ w.extractLsb' 32 32 = 0 ∧
            w.extractLsb' 64 32 = 0 ∧ w.extractLsb' 96 32 = 0) ∨
         (w.extractLsb' 0 8 = 0x08#8 ∧ w.extractLsb' 96 32 = 0))) ∧
    ((Command.ofWord w).wellFormed = true ↔ ∃ i, decode w = .ok i) ∧
    (∀ (s : State) (rest : List HostInput), s.Sends w rest → (Command.ofWord w).wellFormed = false →
      step s = .next (State.rejected { s with inputs := rest } .illegal))

/-- R77: what makes a word illegal, and that the core then answers ILLEGAL with DATA 0 and changes nothing, an ACTIVE
frame staying ACTIVE. -/
def Obligations.IllegalWordsAreRejected : Prop :=
  ∀ (s : State) (w : Word128) (rest : List HostInput), s.Sends w rest →
    (w.extractLsb' 0 8 = 0x00#8 ∨ 0x09#8 ≤ w.extractLsb' 0 8 ∨ w.extractLsb' 8 24 ≠ 0 ∨
      (w.extractLsb' 0 8 = 0x01#8 ∧ w.extractLsb' 97 31 ≠ 0) ∨
      (0x03#8 ≤ w.extractLsb' 0 8 ∧ w.extractLsb' 0 8 ≤ 0x07#8 ∧ w.extractLsb' 32 96 ≠ 0) ∨
      (w.extractLsb' 0 8 = 0x08#8 ∧ w.extractLsb' 96 32 ≠ 0) ↔ ∃ e, decode w = .error e) ∧
    (∀ e, decode w = .error e →
      step s = .next { s with
        inputs := rest, response := some { resp := .illegal, status := s.status, data := 0 } })

/-- The machine-readable table (30_encoding.md, opening): a word is well-formed exactly when it selects a row, no word
selects two, and a word decodes to an instruction of the row it selects. -/
def Obligations.TableSelectsTheDecodedRow : Prop :=
  ∀ w : Word128,
    ((Command.ofWord w).wellFormed = true ↔ ∃ row ∈ opcodeTable, row.selects w = true) ∧
    (∀ r1 ∈ opcodeTable, ∀ r2 ∈ opcodeTable, r1.selects w = true → r2.selects w = true → r1 = r2) ∧
    (∀ i, decode w = .ok i → i.row ∈ opcodeTable ∧ i.row.selects w = true)

/-- Words written out from R70, R71 and R73, as 95_test_vectors.md lists them, and what they stand for. -/
def Obligations.ListedWordsDecode : Prop :=
  decode 0x00000001_00000001_00000002_00000001#128 = .ok (.frame 2 1 .rgba) ∧
  decode 0x3f800000_3e800000_3f000000_00000002#128 = .ok (.pixel 0x3f000000#32 0x3e800000#32 0x3f800000#32) ∧
  decode 0x00000000_00000000_00000000_00000003#128 = .ok .finish ∧
  decode 0x00000000_00000000_00000000_00000004#128 = .ok .clear ∧
  decode 0x00000000_00000000_00000000_00000005#128 = .ok .rdstat ∧
  decode 0x00000000_00000000_00000000_00000006#128 = .ok .rdcfg ∧
  decode 0x00000000_00000000_00000000_00000007#128 = .ok .rdcnt ∧
  decode 0x00000000_00000001_00000000_00000008#128 = .ok (.rdbuf 0x0000000100000000#64)

/-- R81: the expansions of the two pseudo-instructions, as instructions, as words, and in the assembler. -/
def Obligations.PseudoInstructionsExpand : Prop :=
  Instr.nop = .rdstat ∧ Instr.black = .pixel 0x00000000#32 0x00000000#32 0x00000000#32 ∧
  assembleLine ['N', 'O', 'P'] = .ok (some .rdstat) ∧
  assembleLine ['B', 'L', 'A', 'C', 'K'] = .ok (some (.pixel 0x00000000#32 0x00000000#32 0x00000000#32))

/-- R80, R82, on the value a decimal literal has been read as (no text is parsed here): exactBinary32 gives a pattern for a
value without a minus exactly when a pattern without the sign bit has that very value, and with a minus that pattern with
the sign bit set. At value 0 the minus gives 0x80000000: 93_implementation_defined.md G2 gives that pattern for -0.0, and
log 15 names it for every other literal of value 0 with a minus. -/
def Obligations.AssemblerTakesExactDecimals : Prop :=
  ∀ v : Rat,
    (∀ b : Word32, exactBinary32 false v = some b ↔ b.toNat < 2 ^ 31 ∧ val32 b = some (.num v)) ∧
    exactBinary32 true v = (exactBinary32 false v).map (fun b => b ||| 0x80000000#32)

/-! ## The step, the ports and reset -/

/-- When the host presents a word that decodes, the step is exec of the instruction it decodes to, at the state in which
the host has gone on to its next action (R20, R79). -/
def Obligations.StepRunsDecodedCommand : Prop :=
  ∀ (s : State) (w : Word128) (rest : List HostInput) (i : Instr),
    s.Sends w rest → decode w = .ok i → step s = exec i { s with inputs := rest }

/-- R202: between commands the core holds its state unchanged, and only a command or reset changes it. That a step with
nothing presented is a next state is the model's form of "between commands" (log 9). -/
def Obligations.OnlyCommandsAndResetChangeState : Prop :=
  ∀ s : State,
    (s.inputs = [] → step s = .next s) ∧
    (∀ t, step s = .next t → t ≠ s →
      ∃ rest, (∃ w, s.Sends w rest) ∨ (∃ draw, s.Resets draw rest))

/-- R220, R221: reset, asserted between commands or during one, puts every register at its value of R34 and gives no
response; a command in progress has no effect. The next action of the host is its next one, and the build stays. The
empty response port after reset is the model's choice (log 4). -/
def Obligations.ResetPutsEveryRegister : Prop :=
  ∀ (s : State) (draw : List Byte) (rest : List HostInput), s.Resets draw rest →
    ∃ t, step s = .next t ∧ t.st = .idle ∧ t.width = 0 ∧ t.height = 0 ∧ t.fmt = .rgbm ∧ t.idx = 0 ∧
      t.zero = false ∧ t.oor = false ∧ t.sat = false ∧ t.err = .none ∧ t.response = none ∧ t.inputs = rest ∧
      t.build = s.build

/-- After reset RB holds an arbitrary byte array (R34, R220, X1): the array drawn, and every array of 4*RB_PIXELS bytes is
drawn by some reset, of the machine right after reset as of any later one. That the draw stands in the host's action is
the model's form (log 7). -/
def Obligations.ResetLeavesAnArbitraryRaster : Prop :=
  (∀ (s : State) (draw : List Byte) (rest : List HostInput), s.Resets draw rest →
    ∃ t, step s = .next t ∧ ∀ (a : Nat) (b : Byte), a < 4 * s.build.rbPixels → draw[a]? = some b → t.rb.read a = b) ∧
  (∀ (build : Config.Build) (array : Nat → Byte), ∃ draw : List Byte,
    (∀ (inputs : List HostInput) (a : Nat), a < 4 * build.rbPixels →
      (State.resetOf build draw inputs).rb.read a = array a) ∧
    (∀ (s : State) (rest : List HostInput), s.build = build → s.Resets draw rest →
      ∃ t, step s = .next t ∧ ∀ a, a < 4 * build.rbPixels → t.rb.read a = array a))

/-- R74, R76, R223: in every state of the invariant, a command word gets exactly one response, after its effects: the
step goes on, the response carries the STATUS as it then stands, and DATA is 0 unless the response is OK. -/
def Obligations.EveryCommandGetsOneResponse : Prop :=
  ∀ (s : State) (w : Word128) (rest : List HostInput), s.Inv → s.Sends w rest →
    ∃ t r, step s = .next t ∧ t.inputs = rest ∧ t.response = some r ∧ r.status = t.status ∧ (r.resp ≠ .ok → r.data = 0)

/-- R29: the STATUS word as a number: STATE in bits 1:0, FMT, ZERO, OOR, SAT in bits 2 to 5, ERR in bits 11:8, every
reserved bit 0; with the values of R23, R25 and R28. -/
def Obligations.StatusWordLayout : Prop :=
  ∀ t : Status, t.word.toNat =
    (match t.st with | .idle => 0 | .active => 1 | .done => 2 | .error => 3) +
    4 * (match t.fmt with | .rgbm => 0 | .rgba => 1) + 8 * t.zero.toNat + 16 * t.oor.toNat + 32 * t.sat.toNat +
    256 * (match t.err with | .none => 0 | .input => 1 | .overrun => 2 | .length => 3)

/-- R74: the response word as a number: DATA in bits 63:0, STATUS in bits 95:64, RESP in bits 99:96, the rest 0; with
the values of R75. -/
def Obligations.ResponseWordLayout : Prop :=
  ∀ r : Response, r.word.toNat =
    r.data.toNat + 2 ^ 64 * r.status.word.toNat +
    2 ^ 96 * (match r.resp with | .ok => 0 | .illegal => 1 | .wrongState => 2 | .badArg => 3 | .fault => 4)

/-- R76: DATA is 0 in every response except PIXEL's packed quadruple, RDCFG's dimensions, RDCNT's IDX and RDBUF's pixel,
and those are given only with OK. -/
def Obligations.ResponseDataByCommand : Prop :=
  ∀ (i : Instr) (s t : State) (r : Response), exec i s = .next t → t.response = some r →
    (r.resp ≠ .ok → r.data = 0) ∧
    (r.resp = .ok →
      match i with
      | .pixel _ _ _ => r.data.toNat =
          (t.rb.read (4 * s.idx.toNat)).toNat + 2 ^ 8 * (t.rb.read (4 * s.idx.toNat + 1)).toNat +
          2 ^ 16 * (t.rb.read (4 * s.idx.toNat + 2)).toNat + 2 ^ 24 * (t.rb.read (4 * s.idx.toNat + 3)).toNat
      | .rdcfg => r.data.toNat = s.width.toNat + 2 ^ 32 * s.height.toNat
      | .rdcnt => r.data = s.idx
      | .rdbuf p => r.data.toNat =
          (s.rb.read (4 * p.toNat)).toNat + 2 ^ 8 * (s.rb.read (4 * p.toNat + 1)).toNat +
          2 ^ 16 * (s.rb.read (4 * p.toNat + 2)).toNat + 2 ^ 24 * (s.rb.read (4 * p.toNat + 3)).toNat
      | .frame _ _ _ => r.data = 0
      | .finish => r.data = 0
      | .clear => r.data = 0
      | .rdstat => r.data = 0)

/-! ## The commands: what each does, in every state, and what it leaves unchanged -/

/-- R140, FRAME. Ill-formed: ILLEGAL. Then the three cases of its pseudocode, each with the whole next state: what is not
named stays, RB among it. After an accepted FRAME no byte of RB is readable until FINISH, and no other command but
CLEAR changes FMT. -/
def Obligations.FrameFollowsItsRule : Prop :=
  (∀ (s : State) (w : Word128) (rest : List HostInput), s.Sends w rest → w.extractLsb' 0 8 = 0x01#8 →
    (¬ (w.extractLsb' 8 24 = 0 ∧ w.extractLsb' 97 31 = 0) →
      step s = .next (State.rejected { s with inputs := rest } .illegal)) ∧
    (w.extractLsb' 8 24 = 0 ∧ w.extractLsb' 97 31 = 0 →
      step s = exec (.frame (w.extractLsb' 32 32) (w.extractLsb' 64 32)
        (if w.extractLsb' 96 1 = 1 then .rgba else .rgbm)) { s with inputs := rest })) ∧
  (∀ (s : State) (w h : Word32) (f : Fmt),
    (s.st = .active → exec (.frame w h f) s = .next (s.rejected .wrongState)) ∧
    (s.st ≠ .active → s.build.rbPixels < w.toNat * h.toNat →
      exec (.frame w h f) s = .next (s.rejected .badArg)) ∧
    (s.st ≠ .active → w.toNat * h.toNat ≤ s.build.rbPixels →
      ∃ t, exec (.frame w h f) s = .next t ∧
        t = { s with
          st := .active, width := w, height := h, fmt := f, idx := 0, zero := false, oor := false, sat := false,
          err := .none,
          response := some {
            resp := .ok,
            status := { st := .active, fmt := f, zero := false, oor := false, sat := false, err := .none },
            data := 0 } } ∧
        ∀ p, exec (.rdbuf p) t = .next (t.rejected .wrongState))) ∧
  (∀ (i : Instr) (s t : State), exec i s = .next t → (∀ w h f, i ≠ .frame w h f) → i ≠ .clear → t.fmt = s.fmt)

/-- R141, PIXEL. Ill-formed (only RSV can be): ILLEGAL. Then the cases of its pseudocode in order: WRONG_STATE,
ERR_OVERRUN, ERR_INPUT, and the accepted pixel, for which the four bytes at 4*IDX, the flags, IDX and the response are
given and everything else is unchanged, every other byte of RB among it. Its corner cases: an all-zero pixel, +Inf, and
that IDX + 1 does not exceed WIDTH * HEIGHT. The bytes are those of the datapath, which the statements below are about. -/
def Obligations.PixelFollowsItsRule : Prop :=
  (∀ (s : State) (w : Word128) (rest : List HostInput), s.Sends w rest → w.extractLsb' 0 8 = 0x02#8 →
    (w.extractLsb' 8 24 ≠ 0 → step s = .next (State.rejected { s with inputs := rest } .illegal)) ∧
    (w.extractLsb' 8 24 = 0 →
      step s = exec (.pixel (w.extractLsb' 32 32) (w.extractLsb' 64 32) (w.extractLsb' 96 32))
        { s with inputs := rest })) ∧
  (∀ (s : State) (a b c : Word32),
    (s.st ≠ .active → exec (.pixel a b c) s = .next (s.rejected .wrongState)) ∧
    (s.st = .active → s.idx.toNat = s.area → exec (.pixel a b c) s = .next (s.faulted .overrun)) ∧
    (s.st = .active → s.idx.toNat ≠ s.area → val32 a = none ∨ val32 b = none ∨ val32 c = none →
      exec (.pixel a b c) s = .next (s.faulted .input)) ∧
    (∀ v : Rgb Radiance, s.st = .active → s.idx.toNat < s.area → s.area ≤ s.build.rbPixels →
      val32 a = some v.r → val32 b = some v.g → val32 c = some v.b →
      ∃ (t : State) (q : ByteQuad), exec (.pixel a b c) s = .next t ∧
        q = (match s.fmt with
          | .rgbm => quantize (rgbmEncode s.build.range v)
          | .rgba => reconstruct s.build.range (rgbmEncode s.build.range v)) ∧
        t = { s with
          idx := s.idx + 1,
          zero := s.zero || pixelZero s.build.range v,
          oor := s.oor || outOfRange s.build.range v,
          sat := s.sat || pixelSat s.build.range s.fmt v,
          rb := t.rb,
          response := some { resp := .ok, status := t.status, data := q.word.setWidth 64 } } ∧
        t.rb.read (4 * s.idx.toNat) = q.q0 ∧ t.rb.read (4 * s.idx.toNat + 1) = q.q1 ∧
        t.rb.read (4 * s.idx.toNat + 2) = q.q2 ∧ t.rb.read (4 * s.idx.toNat + 3) = q.q3 ∧
        (∀ x, x < 4 * s.idx.toNat ∨ 4 * s.idx.toNat + 4 ≤ x → t.rb.read x = s.rb.read x) ∧
        t.idx.toNat = s.idx.toNat + 1 ∧ t.idx.toNat ≤ s.area ∧
        (v = ⟨.num 0, .num 0, .num 0⟩ →
          q = ⟨0, 0, 0, match s.fmt with | .rgbm => 1 | .rgba => 255⟩ ∧ t.zero = true) ∧
        (v.r = .pinf ∨ v.g = .pinf ∨ v.b = .pinf → t.oor = true))) ∧
  val32 0x80000000#32 = some (.num 0)

/-- R142, FINISH. Ill-formed: ILLEGAL. Then the cases of its pseudocode, each with the whole next state; and from a state
of the invariant an accepted FINISH leaves a raster of exactly 4 * WIDTH * HEIGHT bytes. -/
def Obligations.FinishFollowsItsRule : Prop :=
  (∀ (s : State) (w : Word128) (rest : List HostInput), s.Sends w rest → w.extractLsb' 0 8 = 0x03#8 →
    (w.extractLsb' 8 120 ≠ 0 → step s = .next (State.rejected { s with inputs := rest } .illegal)) ∧
    (w.extractLsb' 8 120 = 0 → step s = exec .finish { s with inputs := rest })) ∧
  (∀ s : State,
    (s.st ≠ .active → exec .finish s = .next (s.rejected .wrongState)) ∧
    (s.st = .active → s.idx.toNat ≠ s.area → exec .finish s = .next (s.faulted .length)) ∧
    (s.st = .active → s.idx.toNat = s.area →
      ∃ t, exec .finish s = .next t ∧
        t = { s with
          st := .done, response := some { resp := .ok, status := { s.status with st := .done }, data := 0 } } ∧
        (s.Inv → ∃ bytes, t.raster = some bytes ∧ bytes.length = 4 * (s.width.toNat * s.height.toNat))))

/-- R143, CLEAR. Ill-formed: ILLEGAL. Else it is accepted in every state: every register takes its reset value, RB is not
changed, and none of it is readable. -/
def Obligations.ClearFollowsItsRule : Prop :=
  (∀ (s : State) (w : Word128) (rest : List HostInput), s.Sends w rest → w.extractLsb' 0 8 = 0x04#8 →
    (w.extractLsb' 8 120 ≠ 0 → step s = .next (State.rejected { s with inputs := rest } .illegal)) ∧
    (w.extractLsb' 8 120 = 0 → step s = exec .clear { s with inputs := rest })) ∧
  (∀ s : State, ∃ t, exec .clear s = .next t ∧
    t = { State.resetOf s.build [] s.inputs with
      rb := s.rb,
      response := some {
        resp := .ok,
        status := { st := .idle, fmt := .rgbm, zero := false, oor := false, sat := false, err := .none },
        data := 0 } } ∧
    ∀ p, exec (.rdbuf p) t = .next (t.rejected .wrongState))

/-- R170, RDSTAT. Ill-formed: ILLEGAL. Else OK with DATA 0 in every state, and nothing but the response changes. It is
the expansion of NOP. -/
def Obligations.RdstatFollowsItsRule : Prop :=
  (∀ (s : State) (w : Word128) (rest : List HostInput), s.Sends w rest → w.extractLsb' 0 8 = 0x05#8 →
    (w.extractLsb' 8 120 ≠ 0 → step s = .next (State.rejected { s with inputs := rest } .illegal)) ∧
    (w.extractLsb' 8 120 = 0 → step s = exec .rdstat { s with inputs := rest })) ∧
  (∀ s : State,
    exec .rdstat s = .next { s with response := some { resp := .ok, status := s.status, data := 0 } }) ∧
  Instr.nop = .rdstat

/-- R171, RDCFG. Ill-formed: ILLEGAL. Else OK with {HEIGHT, WIDTH} in every state, and nothing but the response changes. -/
def Obligations.RdcfgFollowsItsRule : Prop :=
  (∀ (s : State) (w : Word128) (rest : List HostInput), s.Sends w rest → w.extractLsb' 0 8 = 0x06#8 →
    (w.extractLsb' 8 120 ≠ 0 → step s = .next (State.rejected { s with inputs := rest } .illegal)) ∧
    (w.extractLsb' 8 120 = 0 → step s = exec .rdcfg { s with inputs := rest })) ∧
  (∀ s : State, ∃ d : Word64, d.extractLsb' 0 32 = s.width ∧ d.extractLsb' 32 32 = s.height ∧
    exec .rdcfg s = .next { s with response := some { resp := .ok, status := s.status, data := d } })

/-- R172, RDCNT. Ill-formed: ILLEGAL. Else OK with IDX in every state, and nothing but the response changes. A faulting
PIXEL does not count: IDX is the same after it. -/
def Obligations.RdcntFollowsItsRule : Prop :=
  (∀ (s : State) (w : Word128) (rest : List HostInput), s.Sends w rest → w.extractLsb' 0 8 = 0x07#8 →
    (w.extractLsb' 8 120 ≠ 0 → step s = .next (State.rejected { s with inputs := rest } .illegal)) ∧
    (w.extractLsb' 8 120 = 0 → step s = exec .rdcnt { s with inputs := rest })) ∧
  (∀ s : State,
    exec .rdcnt s = .next { s with response := some { resp := .ok, status := s.status, data := s.idx } }) ∧
  (∀ (i : Instr) (s t : State) (r : Response), exec i s = .next t → t.response = some r → r.resp = .fault →
    t.idx = s.idx)

/-- R173, RDBUF. Ill-formed: ILLEGAL. Then the cases of its pseudocode: WRONG_STATE, BADARG, and in a DONE state whose frame
fits RB (R24), with the index inside the frame, OK with the four bytes at 4*p, the least significant first; nothing but the
response changes, and reading again gives the same. -/
def Obligations.RdbufFollowsItsRule : Prop :=
  (∀ (s : State) (w : Word128) (rest : List HostInput), s.Sends w rest → w.extractLsb' 0 8 = 0x08#8 →
    (¬ (w.extractLsb' 8 24 = 0 ∧ w.extractLsb' 96 32 = 0) →
      step s = .next (State.rejected { s with inputs := rest } .illegal)) ∧
    (w.extractLsb' 8 24 = 0 ∧ w.extractLsb' 96 32 = 0 →
      step s = exec (.rdbuf (w.extractLsb' 32 64)) { s with inputs := rest })) ∧
  (∀ (s : State) (p : Word64),
    (s.st ≠ .done → exec (.rdbuf p) s = .next (s.rejected .wrongState)) ∧
    (s.st = .done → s.area ≤ p.toNat → exec (.rdbuf p) s = .next (s.rejected .badArg)) ∧
    (s.st = .done → p.toNat < s.area → s.area ≤ s.build.rbPixels →
      ∃ (d : Word64) (t : State), exec (.rdbuf p) s = .next t ∧
        d.toNat = (s.rb.read (4 * p.toNat)).toNat + 2 ^ 8 * (s.rb.read (4 * p.toNat + 1)).toNat +
          2 ^ 16 * (s.rb.read (4 * p.toNat + 2)).toNat + 2 ^ 24 * (s.rb.read (4 * p.toNat + 3)).toNat ∧
        t = { s with response := some { resp := .ok, status := s.status, data := d } } ∧
        exec (.rdbuf p) t = .next t))

/-! ## Rejections, faults and the frame state machine -/

/-- R190: a rejected command changes no state at all but its response, and the next command sees the machine as if the
rejected one had never been sent. -/
def Obligations.RejectedCommandsChangeNothing : Prop :=
  (∀ (i : Instr) (s t : State) (r : Response), exec i s = .next t → t.response = some r →
    r.resp = .illegal ∨ r.resp = .wrongState ∨ r.resp = .badArg →
    t = { s with response := some { resp := r.resp, status := s.status, data := 0 } } ∧
    ∀ j : Instr, exec j t = exec j s) ∧
  (∀ (s : State) (w : Word128) (rest : List HostInput) (e : DecodeError), s.Sends w rest → decode w = .error e →
    ∃ t, step s = .next t ∧
      t = { s with inputs := rest, response := some { resp := .illegal, status := s.status, data := 0 } } ∧
      ∀ j : Instr, exec j t = exec j { s with inputs := rest })

/-- R191: which command is rejected with which code, and why: ILLEGAL is the answer to exactly the words that do not
decode, and WRONG_STATE and BADARG have the causes of the table. -/
def Obligations.RejectionCauses : Prop :=
  (∀ (s t : State) (w : Word128) (rest : List HostInput) (r : Response), s.Sends w rest → step s = .next t →
    t.response = some r → (r.resp = .illegal ↔ ∃ e, decode w = .error e)) ∧
  (∀ (i : Instr) (s t : State) (r : Response), exec i s = .next t → t.response = some r →
    r.resp ≠ .illegal ∧
    (r.resp = .wrongState ↔
      (s.st = .active ∧ ∃ w h f, i = .frame w h f) ∨
      (s.st ≠ .active ∧ (i = .finish ∨ ∃ a b c, i = .pixel a b c)) ∨
      (s.st ≠ .done ∧ ∃ p, i = .rdbuf p)) ∧
    (r.resp = .badArg ↔
      (s.st ≠ .active ∧ ∃ w h f, i = .frame w h f ∧ s.build.rbPixels < w.toNat * h.toNat) ∨
      (s.st = .done ∧ ∃ p, i = .rdbuf p ∧ s.width.toNat * s.height.toNat ≤ p.toNat)))

/-- R192, R194: a frame fault has no effect but STATE, ERR and the response; which code has which cause; and in ERROR
every PIXEL, FINISH and RDBUF is rejected with WRONG_STATE. -/
def Obligations.FrameFaultsArePrecise : Prop :=
  (∀ (i : Instr) (s t : State) (r : Response), exec i s = .next t → t.response = some r → r.resp = .fault →
    ∃ code : Err, code ≠ .none ∧
      t = { s with
        st := .error, err := code,
        response := some { resp := .fault, status := { s.status with st := .error, err := code }, data := 0 } } ∧
      s.st = .active ∧
      ((code = .overrun ∧ s.idx.toNat = s.area ∧ ∃ a b c, i = .pixel a b c) ∨
       (code = .input ∧ s.idx.toNat ≠ s.area ∧
          ∃ a b c, i = .pixel a b c ∧ (val32 a = none ∨ val32 b = none ∨ val32 c = none)) ∨
       (code = .length ∧ s.idx.toNat ≠ s.area ∧ i = .finish))) ∧
  (∀ s : State, s.st = .active →
    (∀ a b c, s.idx.toNat = s.area → exec (.pixel a b c) s = .next (s.faulted .overrun)) ∧
    (∀ a b c, s.idx.toNat < s.area → val32 a = none ∨ val32 b = none ∨ val32 c = none →
      exec (.pixel a b c) s = .next (s.faulted .input)) ∧
    (s.idx.toNat < s.area → exec .finish s = .next (s.faulted .length))) ∧
  (∀ s : State, s.st = .error →
    (∀ a b c, exec (.pixel a b c) s = .next (s.rejected .wrongState)) ∧
    exec .finish s = .next (s.rejected .wrongState) ∧
    (∀ p, exec (.rdbuf p) s = .next (s.rejected .wrongState)))

/-- R193: the order of the checks, wherever two of them fail at once. -/
def Obligations.ChecksRunInOrder : Prop :=
  (∀ (s : State) (w : Word128) (rest : List HostInput), s.Sends w rest → (Command.ofWord w).wellFormed = false →
    step s = .next (State.rejected { s with inputs := rest } .illegal)) ∧
  (∀ (s : State) (w h : Word32) (f : Fmt), s.st = .active → s.build.rbPixels < w.toNat * h.toNat →
    exec (.frame w h f) s = .next (s.rejected .wrongState)) ∧
  (∀ (s : State) (p : Word64), s.st ≠ .done → s.area ≤ p.toNat →
    exec (.rdbuf p) s = .next (s.rejected .wrongState)) ∧
  (∀ (s : State) (a b c : Word32), s.st ≠ .active →
    s.idx.toNat = s.area ∨ val32 a = none ∨ val32 b = none ∨ val32 c = none →
    exec (.pixel a b c) s = .next (s.rejected .wrongState)) ∧
  (∀ (s : State) (a b c : Word32), s.st = .active → s.idx.toNat = s.area →
    val32 a = none ∨ val32 b = none ∨ val32 c = none →
    exec (.pixel a b c) s = .next (s.faulted .overrun)) ∧
  (∀ s : State, s.st ≠ .active → s.idx.toNat ≠ s.area → exec .finish s = .next (s.rejected .wrongState))

/-- R195: ERROR is left only by CLEAR, by an accepted FRAME, which clears ERR, or by reset; no command faults in it, and
ERR keeps its code while it lasts. -/
def Obligations.ErrorStateIsLeftOnlyByClearFrameOrReset : Prop :=
  ∀ s t : State, s.st = .error → step s = .next t →
    (t.st ≠ .error →
      (∃ draw rest, s.Resets draw rest) ∨
      (∃ w rest, s.Sends w rest ∧ decode w = .ok .clear ∧ t.st = .idle) ∨
      (∃ w rest wd ht f, s.Sends w rest ∧ decode w = .ok (.frame wd ht f) ∧ t.st = .active ∧ t.err = .none)) ∧
    (t.st = .error → t.err = s.err) ∧
    (∀ w rest r, s.Sends w rest → t.response = some r → r.resp ≠ .fault)

/-- R145: every cell of the transition table, in every state of the invariant: STATE, RESP and ERR after each command are
the table's; an accepted PIXEL counts; an ill-formed word is ILLEGAL in every state; reset enters IDLE from any. -/
def Obligations.TransitionsFollowTheTable : Prop :=
  (∀ (i : Instr) (s : State), s.Inv →
    ∃ t r, exec i s = .next t ∧ t.response = some r ∧ (t.st, r.resp, t.err) = transition i s ∧
      (∀ a b c, i = .pixel a b c → r.resp = .ok → t.idx.toNat = s.idx.toNat + 1) ∧
      (r.resp = .wrongState ∨ r.resp = .badArg → t = s.rejected r.resp)) ∧
  (∀ (s : State) (w : Word128) (rest : List HostInput), s.Sends w rest → (Command.ofWord w).wellFormed = false →
    step s = .next (State.rejected { s with inputs := rest } .illegal)) ∧
  (∀ (s : State) (draw : List Byte) (rest : List HostInput), s.Resets draw rest → ∃ t, step s = .next t ∧ t.st = .idle)

/-- R27: what sets the sticky flags, said without the datapath; that nothing clears them within a frame; that an accepted
FRAME, CLEAR and reset clear them. -/
def Obligations.StickyFlagsFollowTheirRule : Prop :=
  (∀ (s t : State) (a b c : Word32) (v : Rgb Radiance),
    val32 a = some v.r → val32 b = some v.g → val32 c = some v.b → exec (.pixel a b c) s = .next t →
    (∃ r, t.response = some r ∧ r.resp = .ok) →
    (t.zero = true ↔ s.zero = true ∨ (v.r = .num 0 ∧ v.g = .num 0 ∧ v.b = .num 0)) ∧
    (t.oor = true ↔ s.oor = true ∨
      ∃ x ∈ [v.r, v.g, v.b], x = .pinf ∨ ∃ q : Rat, x = .num q ∧ s.build.range < q) ∧
    (t.sat = true ↔ s.sat = true ∨
      (s.fmt = .rgba ∧ ∃ x ∈ [v.r, v.g, v.b], 256 / 255 ≤ clampRange s.build.range x))) ∧
  (∀ (i : Instr) (s t : State) (r : Response), exec i s = .next t → t.response = some r →
    (∀ a b c, i = .pixel a b c → r.resp ≠ .ok) → (∀ w h f, i = .frame w h f → r.resp ≠ .ok) → i ≠ .clear →
    t.zero = s.zero ∧ t.oor = s.oor ∧ t.sat = s.sat) ∧
  (∀ (i : Instr) (s t : State) (r : Response), exec i s = .next t → t.response = some r →
    (∃ w h f, i = .frame w h f ∧ r.resp = .ok) ∨ i = .clear → t.zero = false ∧ t.oor = false ∧ t.sat = false) ∧
  (∀ (s : State) (draw : List Byte) (rest : List HostInput), s.Resets draw rest →
    ∃ t, step s = .next t ∧ t.zero = false ∧ t.oor = false ∧ t.sat = false)

/-- R24, R25: WIDTH, HEIGHT and FMT change only by an accepted FRAME, which latches its operands, by CLEAR and by reset. -/
def Obligations.ConfigurationIsLatchedByFrame : Prop :=
  ∀ s t : State, step s = .next t → (t.width, t.height, t.fmt) ≠ (s.width, s.height, s.fmt) →
    (t.width = 0 ∧ t.height = 0 ∧ t.fmt = .rgbm ∧
      ((∃ draw rest, s.Resets draw rest) ∨
       (∃ w rest, s.Sends w rest ∧ decode w = .ok .clear))) ∨
    (∃ w rest, s.Sends w rest ∧ decode w = .ok (.frame t.width t.height t.fmt) ∧ s.st ≠ .active ∧ t.st = .active)

/-- R31: the build parameters are fixed: no step, a reset among them, changes them. -/
def Obligations.BuildParametersNeverChange : Prop :=
  ∀ s t : State, step s = .next t → t.build = s.build

/-! ## The raster buffer -/

/-- R52: the placement of the bytes of a word: a four-byte write puts `v[8j+7:8j]` at `a + j`, leaves every other byte
alone, and a four-byte read gives the word back. -/
def Obligations.BytesArePlacedLeastSignificantFirst : Prop :=
  ∀ (m : Memory) (a : Nat) (v : Word32),
    (∀ j, j < 4 → (m.write4 a v).read (a + j) = v.extractLsb' (8 * j) 8) ∧
    (∀ x, x < a ∨ a + 4 ≤ x → (m.write4 a v).read x = m.read x) ∧
    (m.write4 a v).read4 a = v ∧
    (∀ q : ByteQuad, (m.write4 a q.word).read a = q.q0 ∧ (m.write4 a q.word).read (a + 1) = q.q1 ∧
      (m.write4 a q.word).read (a + 2) = q.q2 ∧ (m.write4 a q.word).read (a + 3) = q.q3)

/-- R30, R50, R57: no command but an accepted PIXEL writes RB, and that one writes only the four bytes at 4*IDX: every
byte of the pixels packed before it reads as before. -/
def Obligations.OnlyAcceptedPixelsWriteTheRaster : Prop :=
  ∀ (i : Instr) (s t : State), exec i s = .next t →
    ((∀ a b c, i ≠ .pixel a b c) → t.rb = s.rb) ∧
    ((∃ r, t.response = some r ∧ r.resp ≠ .ok) → t.rb = s.rb) ∧
    (∀ x, x < 4 * s.idx.toNat ∨ 4 * s.idx.toNat + 4 ≤ x → t.rb.read x = s.rb.read x)

/-- R204, R55, R173: a state of the invariant has a raster if and only if it is DONE, it then has exactly
4 * WIDTH * HEIGHT bytes, byte `a` being RB's byte `a`, and RDBUF of every index inside the frame answers OK with the four
bytes of the raster at four times the index. -/
def Obligations.DoneStatesHaveTheWholeRaster : Prop :=
  ∀ s : State, s.Inv →
    (s.st ≠ .done → s.raster = none) ∧
    (s.st = .done → ∃ bytes, s.raster = some bytes ∧ bytes.length = 4 * (s.width.toNat * s.height.toNat) ∧
      (∀ a, a < bytes.length → bytes[a]? = some (s.rb.read a)) ∧
      ∀ p : Word64, p.toNat < s.area → ∃ t r, exec (.rdbuf p) s = .next t ∧ t.response = some r ∧ r.resp = .ok ∧
        ∀ j, j < 4 → bytes[4 * p.toNat + j]? = some (r.data.extractLsb' (8 * j) 8))

/-- R30, X1, X2: no command reads a byte of RB that the current frame has not written, so no response depends on what RB
held after reset or holds from an earlier frame. Two states of the invariant that differ only in such bytes and in later
draws answer alike under the same host, and so do all runs from reset. -/
def Obligations.UnwrittenBytesAreNeverObserved : Prop :=
  (∀ s1 s2 : State, s1.Inv → s2.Inv → s1.Alike s2 →
    ∃ t1 t2, step s1 = .next t1 ∧ step s2 = .next t2 ∧ t1.Alike t2) ∧
  (∀ (build : Config.Build) (draw1 draw2 : List Byte) (inputs : List HostInput) (k : Nat),
    ∃ t1 t2, run k (State.resetOf build draw1 inputs) = .next t1 ∧ run k (State.resetOf build draw2 inputs) = .next t2 ∧
      t1.response = t2.response ∧ t1.raster = t2.raster)

/-- R173, on indices alone: in a DONE state of the invariant RDBUF of the index y*WIDTH + x, for x below WIDTH and y below
HEIGHT, answers OK with the four bytes at four times that index. That this is the pixel at column x and row y of an image
rests on the host's duty of R203, which the model does not state (log 12). -/
def Obligations.RowMajorIndicesAreReadable : Prop :=
  ∀ (s : State) (x y : Nat), s.Inv → s.st = .done → x < s.width.toNat → y < s.height.toNat →
    ∃ (v : Word32) (t : State), exec (.rdbuf (BitVec.ofNat 64 (y * s.width.toNat + x))) s = .next t ∧
      t = { s with response := some { resp := .ok, status := s.status, data := v.setWidth 64 } } ∧
      ∀ j, j < 4 → s.rb.read (4 * (y * s.width.toNat + x) + j) = v.extractLsb' (8 * j) 8

/-! ## The datapath -/

/-- R82: which patterns are INVALID, which is PINF, and the exact value of every other, from the fields of the pattern as
numbers. -/
def Obligations.Val32DecodesBinary32 : Prop :=
  ∀ (b : Word32) (s e f : Nat), s = b.toNat / 2 ^ 31 → e = b.toNat / 2 ^ 23 % 256 → f = b.toNat % 2 ^ 23 →
    (val32 b = none ↔ (e = 255 ∧ f ≠ 0) ∨ (e = 255 ∧ s = 1) ∨ (s = 1 ∧ (e ≠ 0 ∨ f ≠ 0))) ∧
    (val32 b = some .pinf ↔ e = 255 ∧ f = 0 ∧ s = 0) ∧
    (∀ v : Rat, val32 b = some (.num v) →
      0 ≤ v ∧ (e = 0 → v * 2 ^ 149 = f) ∧ (e ≠ 0 → v * 2 ^ 150 = (2 ^ 23 + f) * 2 ^ e))

/-- From R82: on the patterns 0x00000000 to 0x7F7FFFFF the value grows strictly with the pattern. -/
def Obligations.Val32IsStrictlyMonotone : Prop :=
  ∀ a b : Word32, a.toNat < b.toNat → b.toNat < 0x7F800000 →
    ∃ x y : Rat, val32 a = some (.num x) ∧ val32 b = some (.num y) ∧ x < y

/-- R101, R106: a channel above RANGE, or PINF, becomes RANGE, any other stays; `oor_px` is set exactly when the clamp
changed a channel; and the normalized channels lie in [0, 1]. -/
def Obligations.ClampIsReportedExactly : Prop :=
  ∀ (range : Rat) (a b c : Word32) (v : Rgb Radiance), 0 < range → pixelInput a b c = some v →
    (∀ x : Rat, clampRange range (.num x) = min x range) ∧ clampRange range .pinf = range ∧
    (outOfRange range v = false ↔
      v.r = .num (clampRange range v.r) ∧ v.g = .num (clampRange range v.g) ∧ v.b = .num (clampRange range v.b)) ∧
    (0 ≤ (normalizePixel range (clampPixel range v)).r ∧ (normalizePixel range (clampPixel range v)).r ≤ 1) ∧
    (0 ≤ (normalizePixel range (clampPixel range v)).g ∧ (normalizePixel range (clampPixel range v)).g ≤ 1) ∧
    (0 ≤ (normalizePixel range (clampPixel range v)).b ∧ (normalizePixel range (clampPixel range v)).b ≤ 1)

/-- R107, the encoder's properties, items 1 to 5, for every valid pixel and every RANGE. -/
def Obligations.EncoderProperties : Prop :=
  (∀ (range : Rat) (a b c : Word32) (v : Rgb Radiance) (cl n : Rgb Rat) (q : Quad) (k : Int),
    0 < range → pixelInput a b c = some v → cl = clampPixel range v → n = normalizePixel range cl →
    q = rgbmEncode range v → k = multCode (peakOf n) →
    (0 ≤ q.r ∧ q.r ≤ 1 ∧ 0 ≤ q.g ∧ q.g ≤ 1 ∧ 0 ≤ q.b ∧ q.b ≤ 1) ∧
    (1 / 255 ≤ q.m ∧ q.m ≤ 1 ∧ q.m = k / 255) ∧
    (0 < peakOf n →
      IsLeast { j : Int | 0 < j ∧ n.r / (j / 255) ≤ 1 ∧ n.g / (j / 255) ≤ 1 ∧ n.b / (j / 255) ≤ 1 } k) ∧
    (q.r * q.m = n.r ∧ q.g * q.m = n.g ∧ q.b * q.m = n.b ∧
      q.r * range * q.m = cl.r ∧ q.g * range * q.m = cl.g ∧ q.b * range * q.m = cl.b) ∧
    (0 < peakOf n →
      (n.r = peakOf n → ((k : Rat) - 1) / k < q.r) ∧ (n.g = peakOf n → ((k : Rat) - 1) / k < q.g) ∧
      (n.b = peakOf n → ((k : Rat) - 1) / k < q.b))) ∧
  (rgbmEncode 6 ⟨.num 1, .num 1, .num 1⟩).r = 85 / 86 ∧
  multCode (peakOf (normalizePixel 6 (clampPixel 6 ⟨.num 1, .num 1, .num 1⟩))) = 43

/-- R108: the byte cast saturates and reports it, and never wraps. -/
def Obligations.ByteCastSaturates : Prop :=
  ∀ u : Int,
    ((sat8 u).toNat : Int) = max 0 (min u 255) ∧ (satd u = true ↔ 255 < u)

/-- R110, the quantizer's properties, items 1 to 4, for every valid pixel and every RANGE. -/
def Obligations.QuantizerProperties : Prop :=
  (∀ (range : Rat) (a b c : Word32) (v : Rgb Radiance), 0 < range → pixelInput a b c = some v →
    quantizeSat (rgbmEncode range v) = false ∧
    ((quantize (rgbmEncode range v)).q3.toNat : Int) = multCode (peakOf (normalizePixel range (clampPixel range v))) ∧
    (v = ⟨.num 0, .num 0, .num 0⟩ → quantize (rgbmEncode range v) = ⟨0, 0, 0, 1⟩)) ∧
  (∀ q : Byte, quantizeInt ((q.toNat : Rat) / 255) = q.toNat ∧ sat8 (quantizeInt ((q.toNat : Rat) / 255)) = q)

/-- R112 items 1 and 2: the reconstructed bytes from the clamped channels alone, and when a byte saturates. -/
def Obligations.ReconstructorProperties : Prop :=
  ∀ (range : Rat) (a b c : Word32) (v : Rgb Radiance) (cl : Rgb Rat), 0 < range → pixelInput a b c = some v →
    cl = clampPixel range v →
    ((reconstruct range (rgbmEncode range v)).q0.toNat : Int) = min ⌊255 * cl.r⌋ 255 ∧
    ((reconstruct range (rgbmEncode range v)).q1.toNat : Int) = min ⌊255 * cl.g⌋ 255 ∧
    ((reconstruct range (rgbmEncode range v)).q2.toNat : Int) = min ⌊255 * cl.b⌋ 255 ∧
    (reconstruct range (rgbmEncode range v)).q3 = 255 ∧
    (reconstructSat range (rgbmEncode range v) = true ↔ 256 / 255 ≤ cl.r ∨ 256 / 255 ≤ cl.g ∨ 256 / 255 ≤ cl.b)

/-- 90_conflicts.md C6 (the source's E2): the radiance reapplied from the quantized bytes exceeds the clamped channel by at
most RANGE * m' / 255, which is at most RANGE / 255, and is never below it. -/
def Obligations.ReappliedRadianceIsWithinOneStep : Prop :=
  ∀ (range : Rat) (a b c : Word32) (v : Rgb Radiance) (cl : Rgb Rat) (q : ByteQuad) (m : Rat), 0 < range →
    pixelInput a b c = some v → cl = clampPixel range v → q = quantize (rgbmEncode range v) →
    m = (q.q3.toNat : Rat) / 255 →
    (0 ≤ (q.q0.toNat : Rat) / 255 * range * m - cl.r ∧
      (q.q0.toNat : Rat) / 255 * range * m - cl.r ≤ range * m / 255) ∧
    (0 ≤ (q.q1.toNat : Rat) / 255 * range * m - cl.g ∧
      (q.q1.toNat : Rat) / 255 * range * m - cl.g ≤ range * m / 255) ∧
    (0 ≤ (q.q2.toNat : Rat) / 255 * range * m - cl.b ∧
      (q.q2.toNat : Rat) / 255 * range * m - cl.b ≤ range * m / 255) ∧
    range * m / 255 ≤ range / 255

/-- The source's two boundary pixels (95_test_vectors.md E4, E5), for every RANGE: black encodes to (0, 0, 0, 1/255), and a
pixel at RANGE to (1, 1, 1, 1), with their bytes and flags. -/
def Obligations.BoundaryPixelsEncode : Prop :=
  ∀ range : Rat, 0 < range →
    rgbmEncode range ⟨.num 0, .num 0, .num 0⟩ = ⟨0, 0, 0, 1 / 255⟩ ∧
    pixelBytes range .rgbm ⟨.num 0, .num 0, .num 0⟩ = ⟨0, 0, 0, 1⟩ ∧
    pixelBytes range .rgba ⟨.num 0, .num 0, .num 0⟩ = ⟨0, 0, 0, 255⟩ ∧
    pixelZero range ⟨.num 0, .num 0, .num 0⟩ = true ∧
    peakOf (normalizePixel range (clampPixel range ⟨.num range, .num range, .num range⟩)) = 1 ∧
    rgbmEncode range ⟨.num range, .num range, .num range⟩ = ⟨1, 1, 1, 1⟩ ∧
    pixelBytes range .rgbm ⟨.num range, .num range, .num range⟩ = ⟨255, 255, 255, 255⟩ ∧
    pixelZero range ⟨.num range, .num range, .num range⟩ = false ∧
    outOfRange range ⟨.num range, .num range, .num range⟩ = false ∧
    pixelSat range .rgbm ⟨.num range, .num range, .num range⟩ = false

/-- R32, R114: "every pixel is processed independently; there is no cross-pixel state": the bytes an accepted PIXEL answers
with depend on the patterns, the format and the build alone. -/
def Obligations.PixelsAreIndependent : Prop :=
  ∀ (s1 s2 t1 t2 : State) (r1 r2 : Response) (a b c : Word32), s1.build = s2.build → s1.fmt = s2.fmt →
    exec (.pixel a b c) s1 = .next t1 → exec (.pixel a b c) s2 = .next t2 →
    t1.response = some r1 → t2.response = some r2 → r1.resp = .ok → r2.resp = .ok → r1.data = r2.data

/-- 95_test_vectors.md E8: the output format never changes anything but byte contents and SAT: two states that agree on
all else go on agreeing, under the same command, or under FRAMEs that differ only in the format. -/
def Obligations.FormatChangesOnlyBytes : Prop :=
  ∀ (s1 s2 t1 t2 : State) (r1 r2 : Response) (i1 i2 : Instr),
    (i1 = i2 ∨ ∃ w h f1 f2, i1 = .frame w h f1 ∧ i2 = .frame w h f2) →
    s1.build = s2.build → s1.st = s2.st → s1.width = s2.width → s1.height = s2.height → s1.idx = s2.idx →
    s1.err = s2.err → s1.zero = s2.zero → s1.oor = s2.oor →
    exec i1 s1 = .next t1 → exec i2 s2 = .next t2 → t1.response = some r1 → t2.response = some r2 →
    t1.build = t2.build ∧ t1.st = t2.st ∧ t1.width = t2.width ∧ t1.height = t2.height ∧ t1.idx = t2.idx ∧
      t1.err = t2.err ∧ t1.zero = t2.zero ∧ t1.oor = t2.oor ∧ r1.resp = r2.resp

/-! ## The whole machine -/

/-- R34: the value of every register after reset, in every build, whatever RB holds, and that RB is then not readable.
The first clause is the model's choice and no rule: State.reset is this state with RB_PIXELS 2^20 (log 2), nothing listed
in RB (log 5) and nothing presented by the host (log 3). -/
def Obligations.ResetValuesOfEveryRegister : Prop :=
  State.reset = State.resetOf Config.defaultBuild [] [] ∧
  ∀ (build : Config.Build) (draw : List Byte) (inputs : List HostInput) (s : State),
    s = State.resetOf build draw inputs →
    s.st = .idle ∧ s.width = 0 ∧ s.height = 0 ∧ s.fmt = .rgbm ∧ s.idx = 0 ∧ s.zero = false ∧ s.oor = false ∧
    s.sat = false ∧ s.err = .none ∧ ∀ p, exec (.rdbuf p) s = .next (s.rejected .wrongState)

/-- The invariant holds after reset, in every build, whatever RB holds and with any host. -/
def Obligations.ResetMeetsTheInvariant : Prop :=
  ∀ (build : Config.Build) (draw : List Byte) (inputs : List HostInput), (State.resetOf build draw inputs).Inv

/-- Every step from a state of the invariant leads to one: IDX stays within the frame and is full in DONE (R26), the frame
fits (R24, R55), ERR is nonzero exactly in ERROR (R28), IDLE has every register at its reset value (R34, R143), RB keeps its
canonical form inside the address space (R30), and the response is fresh (R29, R74). -/
def Obligations.StepKeepsTheInvariant : Prop :=
  ∀ s t : State, s.Inv → step s = .next t → t.Inv

/-- The core never stops (R50, R56): from every state of the invariant the step goes on, and exec answers a next state for
every instruction. No raster access is outside the address space. -/
def Obligations.InvariantStatesNeverStop : Prop :=
  ∀ s : State, s.Inv → s.Safe ∧ ∀ i : Instr, ∃ t, exec i s = .next t

/-- Every run from reset, of any build, whatever RB holds and under any commands, well-formed or not, and any resets, goes on for ever within
the invariant. -/
def Obligations.ReachableStatesAreSafe : Prop :=
  ∀ s : State, Reachable s → s.Inv ∧ s.Safe ∧ ∀ k, ∃ t, run k s = .next t ∧ t.Inv

/-- R222, R57, R204: the frame sequence. From every state that is not ACTIVE, FRAME, exactly WIDTH * HEIGHT valid PIXELs (none
for an empty frame) and FINISH end in DONE with an OK response; the raster is the pixels' byte quadruples in the order
sent; the flags are the OR of the pixels'; and RDBUF of every index inside the frame answers that pixel's quadruple and
changes nothing else. -/
def Obligations.FrameSequenceReadsBack : Prop :=
  ∀ (s : State) (w h : Word32) (f : Fmt) (ps : List (Word32 × Word32 × Word32)) (vs : List (Rgb Radiance))
    (rest : List HostInput),
    s.st ≠ .active → w.toNat * h.toNat ≤ s.build.rbPixels → vs.length = w.toNat * h.toNat →
    ps.map (fun x => pixelInput x.1 x.2.1 x.2.2) = vs.map some →
    s.inputs = sendAll (.frame w h f :: (ps.map (fun x => .pixel x.1 x.2.1 x.2.2) ++ [.finish])) ++ rest →
    ∃ t, run (w.toNat * h.toNat + 2) s = .next t ∧ t.st = .done ∧ t.inputs = rest ∧ t.width = w ∧ t.height = h ∧
      t.fmt = f ∧ t.idx.toNat = w.toNat * h.toNat ∧
      t.response = some { resp := .ok, status := t.status, data := 0 } ∧
      t.raster = some (vs.flatMap (fun v =>
        [(pixelBytes s.build.range f v).q0, (pixelBytes s.build.range f v).q1, (pixelBytes s.build.range f v).q2,
         (pixelBytes s.build.range f v).q3])) ∧
      t.zero = vs.any (pixelZero s.build.range) ∧ t.oor = vs.any (outOfRange s.build.range) ∧
      t.sat = vs.any (pixelSat s.build.range f) ∧
      ∀ (p : Word64) (hp : p.toNat < vs.length), exec (.rdbuf p) t = .next { t with
        response := some {
          resp := .ok, status := t.status,
          data := (pixelBytes s.build.range f vs[p.toNat]).word.setWidth 64 } }
end

