-- ==== Sys2Proof/Laws/Bits.lean ====
section
/-! SUPPORT. The fields of a command word: splitting and joining are inverse to each other, and the bits of a joined word. -/

namespace Sys2Proof

/-- The bits of a joined word, field by field (R70). -/
theorem Command.getLsbD_toWord (k : Command) (i : Nat) (hi : i < 128) :
    k.toWord.getLsbD i =
      if i < 8 then k.op.getLsbD i
      else if i < 32 then k.rsv.getLsbD (i - 8)
      else if i < 64 then k.a.getLsbD (i - 32)
      else if i < 96 then k.b.getLsbD (i - 64)
      else k.c.getLsbD (i - 96) := by
  simp only [Command.toWord]
  grind

/-- Splitting a joined word gives its fields. -/
theorem Command.ofWord_toWord (k : Command) : Command.ofWord k.toWord = k := by
  cases k
  simp only [Command.ofWord, Command.toWord, Command.mk.injEq]
  refine ⟨?_, ?_, ?_, ?_, ?_⟩ <;>
    (apply BitVec.eq_of_getLsbD_eq; intro i hi; simp [hi]; grind)

/-- Joining the fields of a word gives the word: the five fields leave no bit out. -/
theorem Command.toWord_ofWord (w : Word128) : (Command.ofWord w).toWord = w := by
  apply BitVec.eq_of_getLsbD_eq
  intro i hi
  simp [Command.ofWord, Command.toWord]
  grind

end Sys2Proof
end

