-- ==== Sys2Proof/Laws/Codec.lean ====
section
/-! SUPPORT. Small laws of the datapath: the clamp's bounds, that the peak bounds every channel, that the multiplier is
never 0, and the byte cast on the integers it leaves alone. -/

namespace Sys2Proof.Machine

theorem binary32Magnitude_nonneg (b : Word32) : 0 ≤ binary32Magnitude b := by
  unfold binary32Magnitude
  split <;> positivity

theorem clampRange_le (range : Rat) (v : Radiance) : clampRange range v ≤ range := by
  unfold clampRange
  split
  · exact le_refl _
  · split
    · exact le_refl _
    · next h => exact not_lt.mp h

theorem clampRange_inside (range v : Rat) (h : v ≤ range) : clampRange range (.num v) = v := by
  simp [clampRange, not_lt.mpr h]

theorem le_peakOf (n : Rgb Rat) : n.r ≤ peakOf n ∧ n.g ≤ peakOf n ∧ n.b ≤ peakOf n := by
  simp [peakOf]

/-- "`1 <= k`", for a peak that is not negative (R103). -/
theorem one_le_multCode (peak : Rat) (h : 0 ≤ peak) : 1 ≤ multCode peak := by
  have h0 : 0 ≤ rawCode peak := Int.ceil_nonneg (by positivity)
  unfold multCode zeroPixel
  split
  · exact le_refl _
  · next hz => simp at hz; omega

/-- The multiplier is never 0: no division of the datapath is by 0 (R104). -/
theorem multiplierOf_pos (peak : Rat) (h : 0 ≤ peak) : 0 < multiplierOf (multCode peak) := by
  have h1 : (1 : Rat) ≤ (multCode peak : Rat) := by exact_mod_cast one_le_multCode peak h
  unfold multiplierOf
  positivity

theorem sat8_inside (u : Int) (h0 : 0 ≤ u) (h1 : u ≤ 255) : (sat8 u).toNat = u.toNat := by
  unfold sat8
  rw [if_neg (by omega), if_neg (by omega), BitVec.toNat_ofNat]
  omega

theorem sat8_above (u : Int) (h : 255 < u) : sat8 u = 255 := by simp [sat8, h]

end Sys2Proof.Machine
end

