-- ==== Sys2Proof/Laws/Memory.lean ====
section
/-! SUPPORT. The laws of the raster buffer's bytes: a read after a write, what a byte array drawn at reset reads as, and that
every operation keeps the canonical form and the address bound. -/

namespace Sys2Proof.Machine

@[simp] theorem Memory.read_nil (a : Nat) : Memory.read [] a = Memory.unlisted := rfl

theorem Memory.wf_nil : Memory.wf [] := ⟨List.Pairwise.nil, by simp⟩

/-! ## Listing a byte, and taking one out -/

theorem Memory.read_insert (m : Memory) (a b : Nat) (v : Byte) :
    (m.insert a v).read b = if b = a then v else m.read b := by
  induction m with
  | nil => simp [Memory.insert, Memory.read, eq_comm]
  | cons c rest ih =>
    unfold Memory.insert
    split
    · simp [Memory.read, eq_comm]
    · split
      · next hlt heq =>
        subst heq
        by_cases h : b = c.1
        · simp [Memory.read, h]
        · simp [Memory.read, h, Ne.symm h]
      · next hlt hne =>
        by_cases h : b = a
        · simpa [Memory.read, h, Ne.symm hne] using ih
        · simp [Memory.read, ih, h]

theorem Memory.read_erase (m : Memory) (a b : Nat) :
    (m.erase a).read b = if b = a then Memory.unlisted else m.read b := by
  unfold Memory.erase
  induction m with
  | nil => simp
  | cons c rest ih =>
    by_cases hc : c.1 = a
    · by_cases hb : b = a <;> simp_all [Memory.read, eq_comm]
    · by_cases hb : b = a
      · subst hb; simp_all [Memory.read]
      · simp_all [Memory.read]

theorem Memory.mem_erase (m : Memory) (a : Nat) (c : Host.Cell) (h : c ∈ m.erase a) : c ∈ m :=
  (List.mem_filter.mp h).1

/-- What is listed after a byte is listed was listed before, or is that byte. -/
theorem Memory.mem_insert (m : Memory) (a : Nat) (v : Byte) (c : Host.Cell) (h : c ∈ m.insert a v) :
    c = (a, v) ∨ c ∈ m := by
  induction m with
  | nil => simpa [Memory.insert] using h
  | cons d rest ih =>
    unfold Memory.insert at h
    split at h
    · simpa using h
    · split at h
      · rcases List.mem_cons.mp h with rfl | h
        · exact .inl rfl
        · exact .inr (List.mem_cons_of_mem _ h)
      · rcases List.mem_cons.mp h with rfl | h
        · exact .inr List.mem_cons_self
        · exact (ih h).imp id (List.mem_cons_of_mem _)

theorem Memory.insert_rising (m : Memory) (a : Nat) (v : Byte) (h : m.Pairwise (fun x y => x.1 < y.1)) :
    (m.insert a v).Pairwise (fun x y => x.1 < y.1) := by
  induction m with
  | nil => exact List.pairwise_singleton _ _
  | cons c rest ih =>
    obtain ⟨hc, hrest⟩ := List.pairwise_cons.mp h
    unfold Memory.insert
    split
    · next hlt =>
      refine List.pairwise_cons.mpr ⟨fun d hd => ?_, h⟩
      rcases List.mem_cons.mp hd with rfl | hd
      · exact hlt
      · exact hlt.trans (hc d hd)
    · split
      · next hlt heq => exact List.pairwise_cons.mpr ⟨fun d hd => heq ▸ hc d hd, hrest⟩
      · next hlt hne =>
        refine List.pairwise_cons.mpr ⟨fun d hd => ?_, ih hrest⟩
        rcases Memory.mem_insert rest a v d hd with rfl | hd
        · exact lt_of_le_of_ne (not_lt.mp hlt) (Ne.symm hne)
        · exact hc d hd

/-! ## Writing a byte -/

/-- The read of a byte after a write, in one equation. -/
theorem Memory.read_write (m : Memory) (a b : Nat) (v : Byte) :
    (m.write a v).read b = if b = a then v else m.read b := by
  unfold Memory.write
  split
  · next h => simp [Memory.read_erase, h]
  · exact Memory.read_insert m a b v

/-- A read of the byte just written gives it. -/
theorem Memory.read_write_self (m : Memory) (a : Nat) (v : Byte) : (m.write a v).read a = v := by
  simp [Memory.read_write]

/-- A write leaves every other byte alone. -/
theorem Memory.read_write_other (m : Memory) (a b : Nat) (v : Byte) (h : b ≠ a) : (m.write a v).read b = m.read b := by
  simp [Memory.read_write, h]

/-- What is listed after a write was listed before, or is the byte written. -/
theorem Memory.mem_write (m : Memory) (a : Nat) (v : Byte) (c : Host.Cell) (h : c ∈ m.write a v) :
    (c = (a, v) ∧ v ≠ Memory.unlisted) ∨ c ∈ m := by
  unfold Memory.write at h
  split at h
  · exact .inr (Memory.mem_erase m a c h)
  · next hv => exact (Memory.mem_insert m a v c h).imp (fun h => ⟨h, hv⟩) id

/-- A write keeps the canonical form. -/
theorem Memory.write_wf (m : Memory) (a : Nat) (v : Byte) (h : Memory.wf m) : Memory.wf (m.write a v) := by
  refine ⟨?_, fun c hc => ?_⟩
  · unfold Memory.write
    split
    · exact h.1.filter _
    · exact Memory.insert_rising m a v h.1
  · rcases Memory.mem_write m a v c hc with ⟨rfl, hv⟩ | hc
    · exact hv
    · exact h.2 c hc

/-! ## Writing a word -/

/-- The read of a byte after a four-byte write, in one equation. -/
theorem Memory.read_write4 (m : Memory) (a b : Nat) (v : Word32) :
    (m.write4 a v).read b = if a ≤ b ∧ b < a + 4 then byteOf v (b - a) else m.read b := by
  unfold Memory.write4
  simp only [Memory.read_write]
  split_ifs <;> (try omega) <;> (try rfl) <;> (congr 1; omega)

/-- The four-byte write keeps the canonical form. -/
theorem Memory.write4_wf (m : Memory) (a : Nat) (v : Word32) (h : Memory.wf m) : Memory.wf (m.write4 a v) :=
  Memory.write_wf _ _ _ (Memory.write_wf _ _ _ (Memory.write_wf _ _ _ (Memory.write_wf _ _ _ h)))

/-- What is listed after a four-byte write was listed before, or is one of the four addresses. -/
theorem Memory.mem_write4 (m : Memory) (a : Nat) (v : Word32) (c : Host.Cell) (h : c ∈ m.write4 a v) :
    (a ≤ c.1 ∧ c.1 < a + 4) ∨ c ∈ m := by
  rcases Memory.mem_write _ _ _ _ h with ⟨rfl, -⟩ | h
  · exact .inl ⟨by simp, by simp⟩
  rcases Memory.mem_write _ _ _ _ h with ⟨rfl, -⟩ | h
  · exact .inl ⟨by simp, by simp⟩
  rcases Memory.mem_write _ _ _ _ h with ⟨rfl, -⟩ | h
  · exact .inl ⟨by simp, by simp⟩
  rcases Memory.mem_write _ _ _ _ h with ⟨rfl, -⟩ | h
  · exact .inl ⟨le_refl _, by simp⟩
  · exact .inr h

/-! ## A byte array drawn at reset -/

/-- Every address of the array reads as its byte there, every other as unlisted. -/
theorem Memory.read_ofBytes (bytes : List Byte) (base a : Nat) :
    (Memory.ofBytes base bytes).read a =
      if base ≤ a then bytes[a - base]?.getD Memory.unlisted else Memory.unlisted := by
  induction bytes generalizing base with
  | nil => simp [Memory.ofBytes]
  | cons b rest ih =>
    rcases Nat.lt_trichotomy a base with h | rfl | h
    · have h1 : ¬ base ≤ a := by omega
      have h2 : ¬ base + 1 ≤ a := by omega
      have h3 : base ≠ a := by omega
      rw [if_neg h1]
      unfold Memory.ofBytes
      split <;> simp only [Memory.read, ih, h2, h3, if_false]
    · unfold Memory.ofBytes
      split
      · next hb => simp [ih, hb]
      · simp [Memory.read]
    · have h1 : base ≤ a := by omega
      have h3 : base ≠ a := by omega
      obtain ⟨k, rfl⟩ : ∃ k, a = base + 1 + k := ⟨a - (base + 1), by omega⟩
      have h4 : base + 1 + k - base = k + 1 := by omega
      have h5 : base + 1 + k - (base + 1) = k := by omega
      rw [if_pos h1, h4]
      unfold Memory.ofBytes
      split <;> simp [Memory.read, ih, h3, h5]

/-- Everything it lists lies at the array's addresses. -/
theorem Memory.mem_ofBytes (bytes : List Byte) (base : Nat) (c : Host.Cell) (h : c ∈ Memory.ofBytes base bytes) :
    base ≤ c.1 ∧ c.1 < base + bytes.length ∧ c.2 ≠ Memory.unlisted := by
  induction bytes generalizing base with
  | nil => simp [Memory.ofBytes] at h
  | cons b rest ih =>
    unfold Memory.ofBytes at h
    rw [List.length_cons]
    split at h
    · have := ih _ h; exact ⟨by omega, by omega, this.2.2⟩
    · next hb =>
      rcases List.mem_cons.mp h with rfl | h
      · exact ⟨le_refl _, by simp, hb⟩
      · have := ih _ h; exact ⟨by omega, by omega, this.2.2⟩

/-- It is in canonical form. -/
theorem Memory.ofBytes_wf (bytes : List Byte) (base : Nat) : Memory.wf (Memory.ofBytes base bytes) := by
  refine ⟨?_, fun c hc => (Memory.mem_ofBytes bytes base c hc).2.2⟩
  induction bytes generalizing base with
  | nil => exact List.Pairwise.nil
  | cons b rest ih =>
    unfold Memory.ofBytes
    split
    · exact ih _
    · exact List.pairwise_cons.mpr ⟨fun c hc => (Memory.mem_ofBytes rest _ c hc).1, ih _⟩

end Sys2Proof.Machine
end

