-- ==== Sys2Proof/Laws/State.lean ====
section
/-! SUPPORT. What each operation that makes a new state does to each field, so that no later proof unfolds a record update. -/

namespace Sys2Proof.Machine

@[simp] theorem respond_build (c : RespCode) (d : Word64) (s : State) : (respond c d s).build = s.build := rfl
@[simp] theorem respond_st (c : RespCode) (d : Word64) (s : State) : (respond c d s).st = s.st := rfl
@[simp] theorem respond_width (c : RespCode) (d : Word64) (s : State) : (respond c d s).width = s.width := rfl
@[simp] theorem respond_height (c : RespCode) (d : Word64) (s : State) : (respond c d s).height = s.height := rfl
@[simp] theorem respond_fmt (c : RespCode) (d : Word64) (s : State) : (respond c d s).fmt = s.fmt := rfl
@[simp] theorem respond_idx (c : RespCode) (d : Word64) (s : State) : (respond c d s).idx = s.idx := rfl
@[simp] theorem respond_zero (c : RespCode) (d : Word64) (s : State) : (respond c d s).zero = s.zero := rfl
@[simp] theorem respond_oor (c : RespCode) (d : Word64) (s : State) : (respond c d s).oor = s.oor := rfl
@[simp] theorem respond_sat (c : RespCode) (d : Word64) (s : State) : (respond c d s).sat = s.sat := rfl
@[simp] theorem respond_err (c : RespCode) (d : Word64) (s : State) : (respond c d s).err = s.err := rfl
@[simp] theorem respond_rb (c : RespCode) (d : Word64) (s : State) : (respond c d s).rb = s.rb := rfl
@[simp] theorem respond_inputs (c : RespCode) (d : Word64) (s : State) : (respond c d s).inputs = s.inputs := rfl
@[simp] theorem respond_response (c : RespCode) (d : Word64) (s : State) : (respond c d s).response = some { resp := c, status := s.status, data := d } := rfl
@[simp] theorem respond_area (c : RespCode) (d : Word64) (s : State) : (respond c d s).area = s.area := rfl

@[simp] theorem reject_build (c : RespCode) (s : State) : (reject c s).build = s.build := rfl
@[simp] theorem reject_st (c : RespCode) (s : State) : (reject c s).st = s.st := rfl
@[simp] theorem reject_width (c : RespCode) (s : State) : (reject c s).width = s.width := rfl
@[simp] theorem reject_height (c : RespCode) (s : State) : (reject c s).height = s.height := rfl
@[simp] theorem reject_fmt (c : RespCode) (s : State) : (reject c s).fmt = s.fmt := rfl
@[simp] theorem reject_idx (c : RespCode) (s : State) : (reject c s).idx = s.idx := rfl
@[simp] theorem reject_zero (c : RespCode) (s : State) : (reject c s).zero = s.zero := rfl
@[simp] theorem reject_oor (c : RespCode) (s : State) : (reject c s).oor = s.oor := rfl
@[simp] theorem reject_sat (c : RespCode) (s : State) : (reject c s).sat = s.sat := rfl
@[simp] theorem reject_err (c : RespCode) (s : State) : (reject c s).err = s.err := rfl
@[simp] theorem reject_rb (c : RespCode) (s : State) : (reject c s).rb = s.rb := rfl
@[simp] theorem reject_inputs (c : RespCode) (s : State) : (reject c s).inputs = s.inputs := rfl
@[simp] theorem reject_response (c : RespCode) (s : State) : (reject c s).response = some { resp := c, status := s.status, data := 0 } := rfl
@[simp] theorem reject_area (c : RespCode) (s : State) : (reject c s).area = s.area := rfl

@[simp] theorem frameFault_build (c : Err) (s : State) : (frameFault c s).build = s.build := rfl
@[simp] theorem frameFault_st (c : Err) (s : State) : (frameFault c s).st = .error := rfl
@[simp] theorem frameFault_width (c : Err) (s : State) : (frameFault c s).width = s.width := rfl
@[simp] theorem frameFault_height (c : Err) (s : State) : (frameFault c s).height = s.height := rfl
@[simp] theorem frameFault_fmt (c : Err) (s : State) : (frameFault c s).fmt = s.fmt := rfl
@[simp] theorem frameFault_idx (c : Err) (s : State) : (frameFault c s).idx = s.idx := rfl
@[simp] theorem frameFault_zero (c : Err) (s : State) : (frameFault c s).zero = s.zero := rfl
@[simp] theorem frameFault_oor (c : Err) (s : State) : (frameFault c s).oor = s.oor := rfl
@[simp] theorem frameFault_sat (c : Err) (s : State) : (frameFault c s).sat = s.sat := rfl
@[simp] theorem frameFault_err (c : Err) (s : State) : (frameFault c s).err = c := rfl
@[simp] theorem frameFault_rb (c : Err) (s : State) : (frameFault c s).rb = s.rb := rfl
@[simp] theorem frameFault_inputs (c : Err) (s : State) : (frameFault c s).inputs = s.inputs := rfl
@[simp] theorem frameFault_response (c : Err) (s : State) : (frameFault c s).response = some { resp := .fault, status := { s.status with st := .error, err := c }, data := 0 } := rfl
@[simp] theorem frameFault_area (c : Err) (s : State) : (frameFault c s).area = s.area := rfl

@[simp] theorem consume_build (s : State) : (consume s).build = s.build := rfl
@[simp] theorem consume_st (s : State) : (consume s).st = s.st := rfl
@[simp] theorem consume_width (s : State) : (consume s).width = s.width := rfl
@[simp] theorem consume_height (s : State) : (consume s).height = s.height := rfl
@[simp] theorem consume_fmt (s : State) : (consume s).fmt = s.fmt := rfl
@[simp] theorem consume_idx (s : State) : (consume s).idx = s.idx := rfl
@[simp] theorem consume_zero (s : State) : (consume s).zero = s.zero := rfl
@[simp] theorem consume_oor (s : State) : (consume s).oor = s.oor := rfl
@[simp] theorem consume_sat (s : State) : (consume s).sat = s.sat := rfl
@[simp] theorem consume_err (s : State) : (consume s).err = s.err := rfl
@[simp] theorem consume_rb (s : State) : (consume s).rb = s.rb := rfl
@[simp] theorem consume_inputs (s : State) : (consume s).inputs = s.inputs.tail := rfl
@[simp] theorem consume_response (s : State) : (consume s).response = s.response := rfl
@[simp] theorem consume_area (s : State) : (consume s).area = s.area := rfl

@[simp] theorem orFlags_build (s : State) (v : Rgb Radiance) : (s.orFlags v).build = s.build := rfl
@[simp] theorem orFlags_st (s : State) (v : Rgb Radiance) : (s.orFlags v).st = s.st := rfl
@[simp] theorem orFlags_width (s : State) (v : Rgb Radiance) : (s.orFlags v).width = s.width := rfl
@[simp] theorem orFlags_height (s : State) (v : Rgb Radiance) : (s.orFlags v).height = s.height := rfl
@[simp] theorem orFlags_fmt (s : State) (v : Rgb Radiance) : (s.orFlags v).fmt = s.fmt := rfl
@[simp] theorem orFlags_idx (s : State) (v : Rgb Radiance) : (s.orFlags v).idx = s.idx := rfl
@[simp] theorem orFlags_zero (s : State) (v : Rgb Radiance) : (s.orFlags v).zero = (s.zero || pixelZero s.build.range v) := rfl
@[simp] theorem orFlags_oor (s : State) (v : Rgb Radiance) : (s.orFlags v).oor = (s.oor || outOfRange s.build.range v) := rfl
@[simp] theorem orFlags_sat (s : State) (v : Rgb Radiance) : (s.orFlags v).sat = (s.sat || pixelSat s.build.range s.fmt v) := rfl
@[simp] theorem orFlags_err (s : State) (v : Rgb Radiance) : (s.orFlags v).err = s.err := rfl
@[simp] theorem orFlags_rb (s : State) (v : Rgb Radiance) : (s.orFlags v).rb = s.rb := rfl
@[simp] theorem orFlags_inputs (s : State) (v : Rgb Radiance) : (s.orFlags v).inputs = s.inputs := rfl
@[simp] theorem orFlags_response (s : State) (v : Rgb Radiance) : (s.orFlags v).response = s.response := rfl
@[simp] theorem orFlags_area (s : State) (v : Rgb Radiance) : (s.orFlags v).area = s.area := rfl

@[simp] theorem takeReset_build (d : List Byte) (s : State) : (takeReset d s).build = s.build := rfl
@[simp] theorem takeReset_st (d : List Byte) (s : State) : (takeReset d s).st = .idle := rfl
@[simp] theorem takeReset_width (d : List Byte) (s : State) : (takeReset d s).width = 0 := rfl
@[simp] theorem takeReset_height (d : List Byte) (s : State) : (takeReset d s).height = 0 := rfl
@[simp] theorem takeReset_fmt (d : List Byte) (s : State) : (takeReset d s).fmt = .rgbm := rfl
@[simp] theorem takeReset_idx (d : List Byte) (s : State) : (takeReset d s).idx = 0 := rfl
@[simp] theorem takeReset_zero (d : List Byte) (s : State) : (takeReset d s).zero = false := rfl
@[simp] theorem takeReset_oor (d : List Byte) (s : State) : (takeReset d s).oor = false := rfl
@[simp] theorem takeReset_sat (d : List Byte) (s : State) : (takeReset d s).sat = false := rfl
@[simp] theorem takeReset_err (d : List Byte) (s : State) : (takeReset d s).err = .none := rfl
@[simp] theorem takeReset_rb (d : List Byte) (s : State) : (takeReset d s).rb = Memory.ofBytes 0 (d.take (4 * s.build.rbPixels)) := rfl
@[simp] theorem takeReset_inputs (d : List Byte) (s : State) : (takeReset d s).inputs = s.inputs := rfl
@[simp] theorem takeReset_response (d : List Byte) (s : State) : (takeReset d s).response = none := rfl

@[simp] theorem respond_status (c : RespCode) (d : Word64) (s : State) : (respond c d s).status = s.status := rfl
@[simp] theorem reject_status (c : RespCode) (s : State) : (reject c s).status = s.status := rfl
@[simp] theorem consume_status (s : State) : (consume s).status = s.status := rfl
@[simp] theorem frameFault_status (c : Err) (s : State) :
    (frameFault c s).status = { s.status with st := .error, err := c } := rfl
@[simp] theorem takeReset_area (d : List Byte) (s : State) : (takeReset d s).area = 0 := rfl

@[simp] theorem status_st (s : State) : s.status.st = s.st := rfl
@[simp] theorem status_fmt (s : State) : s.status.fmt = s.fmt := rfl
@[simp] theorem status_zero (s : State) : s.status.zero = s.zero := rfl
@[simp] theorem status_oor (s : State) : s.status.oor = s.oor := rfl
@[simp] theorem status_sat (s : State) : s.status.sat = s.sat := rfl
@[simp] theorem status_err (s : State) : s.status.err = s.err := rfl

@[simp] theorem resetOf_build (b : Config.Build) (d : List Byte) (h : List HostInput) : (State.resetOf b d h).build = b := rfl
@[simp] theorem resetOf_st (b : Config.Build) (d : List Byte) (h : List HostInput) : (State.resetOf b d h).st = .idle := rfl
@[simp] theorem resetOf_width (b : Config.Build) (d : List Byte) (h : List HostInput) : (State.resetOf b d h).width = 0 := rfl
@[simp] theorem resetOf_height (b : Config.Build) (d : List Byte) (h : List HostInput) : (State.resetOf b d h).height = 0 := rfl
@[simp] theorem resetOf_fmt (b : Config.Build) (d : List Byte) (h : List HostInput) : (State.resetOf b d h).fmt = .rgbm := rfl
@[simp] theorem resetOf_idx (b : Config.Build) (d : List Byte) (h : List HostInput) : (State.resetOf b d h).idx = 0 := rfl
@[simp] theorem resetOf_zero (b : Config.Build) (d : List Byte) (h : List HostInput) : (State.resetOf b d h).zero = false := rfl
@[simp] theorem resetOf_oor (b : Config.Build) (d : List Byte) (h : List HostInput) : (State.resetOf b d h).oor = false := rfl
@[simp] theorem resetOf_sat (b : Config.Build) (d : List Byte) (h : List HostInput) : (State.resetOf b d h).sat = false := rfl
@[simp] theorem resetOf_err (b : Config.Build) (d : List Byte) (h : List HostInput) : (State.resetOf b d h).err = .none := rfl
@[simp] theorem resetOf_rb (b : Config.Build) (d : List Byte) (h : List HostInput) : (State.resetOf b d h).rb = Memory.ofBytes 0 (d.take (4 * b.rbPixels)) := rfl
@[simp] theorem resetOf_inputs (b : Config.Build) (d : List Byte) (h : List HostInput) : (State.resetOf b d h).inputs = h := rfl
@[simp] theorem resetOf_response (b : Config.Build) (d : List Byte) (h : List HostInput) : (State.resetOf b d h).response = none := rfl
@[simp] theorem area_with_inputs (s : State) (x : List HostInput) : State.area { s with inputs := x } = s.area := rfl
@[simp] theorem area_with_response (s : State) (x : Option Response) : State.area { s with response := x } = s.area := rfl
@[simp] theorem area_with_st (s : State) (x : FrameState) : State.area { s with st := x } = s.area := rfl
@[simp] theorem area_with_rb (s : State) (x : Memory) : State.area { s with rb := x } = s.area := rfl
@[simp] theorem area_with_idx (s : State) (x : Word64) : State.area { s with idx := x } = s.area := rfl
@[simp] theorem area_with_err (s : State) (x : Err) : State.area { s with err := x } = s.area := rfl
@[simp] theorem status_with_inputs (s : State) (x : List HostInput) : State.status { s with inputs := x } = s.status := rfl
@[simp] theorem status_with_response (s : State) (x : Option Response) : State.status { s with response := x } = s.status := rfl
@[simp] theorem status_with_rb (s : State) (x : Memory) : State.status { s with rb := x } = s.status := rfl
@[simp] theorem status_with_idx (s : State) (x : Word64) : State.status { s with idx := x } = s.status := rfl
@[simp] theorem resetOf_area (b : Config.Build) (d : List Byte) (h : List HostInput) : (State.resetOf b d h).area = 0 := rfl

end Sys2Proof.Machine
end

