-- ==== Sys2Proof/Laws/Ops.lean ====
section
/-! SUPPORT. What each shared operation can do, once: the bounded accesses to the raster buffer, the pixel's validity, and
what the core finds on its command port. -/

namespace Sys2Proof.Machine

theorem addressable_iff (s : State) (a : Nat) : s.addressable a = true ↔ a + 4 ≤ 4 * s.build.rbPixels := by
  simp [State.addressable]

/-- A write inside the raster buffer goes through. -/
theorem memWrite4_inside (s : State) (a : Nat) (v : Word32) (h : a + 4 ≤ 4 * s.build.rbPixels) :
    memWrite4 s a v = .ok { s with rb := s.rb.write4 a v } := by
  simp [memWrite4, addressable_iff, h]

/-- A write that went through was inside the raster buffer, and wrote it. -/
theorem memWrite4_cases (s t : State) (a : Nat) (v : Word32) (h : memWrite4 s a v = .ok t) :
    a + 4 ≤ 4 * s.build.rbPixels ∧ t = { s with rb := s.rb.write4 a v } := by
  unfold memWrite4 at h
  split at h
  · next ha => exact ⟨(addressable_iff s a).mp ha, by simpa using h.symm⟩
  · simp at h

/-- A read inside the raster buffer goes through. -/
theorem memRead4_inside (s : State) (a : Nat) (h : a + 4 ≤ 4 * s.build.rbPixels) : memRead4 s a = .ok (s.rb.read4 a) := by
  simp [memRead4, addressable_iff, h]

/-- A read that went through was inside the raster buffer. -/
theorem memRead4_cases (s : State) (a : Nat) (v : Word32) (h : memRead4 s a = .ok v) :
    a + 4 ≤ 4 * s.build.rbPixels ∧ v = s.rb.read4 a := by
  unfold memRead4 at h
  split at h
  · next ha => exact ⟨(addressable_iff s a).mp ha, by simpa using h.symm⟩
  · simp at h

/-- RB after reset: the byte drawn at every address that exists (R220, X1). -/
theorem resetOf_read (b : Config.Build) (d : List Byte) (h : List HostInput) (a : Nat) :
    (State.resetOf b d h).rb.read a = if a < 4 * b.rbPixels then d[a]?.getD Memory.unlisted else Memory.unlisted := by
  simp only [resetOf_rb, Memory.read_ofBytes, Nat.zero_le, if_true, Nat.sub_zero, List.getElem?_take]
  split <;> rfl

/-- RB after reset lists nothing outside its address space. -/
theorem resetOf_inside (b : Config.Build) (d : List Byte) (h : List HostInput) (c : Host.Cell)
    (hc : c ∈ (State.resetOf b d h).rb) : c.1 < 4 * b.rbPixels := by
  have h1 := (Memory.mem_ofBytes _ _ _ hc).2.1
  rw [List.length_take] at h1
  omega

theorem pixelInput_eq_some (a b c : Word32) (v : Rgb Radiance) :
    pixelInput a b c = some v ↔ val32 a = some v.r ∧ val32 b = some v.g ∧ val32 c = some v.b := by
  unfold pixelInput
  constructor
  · intro h
    split at h
    · next h1 h2 h3 => cases h; exact ⟨h1, h2, h3⟩
    · simp at h
  · rintro ⟨h1, h2, h3⟩
    simp [h1, h2, h3]

theorem pixelInput_eq_none (a b c : Word32) :
    pixelInput a b c = none ↔ val32 a = none ∨ val32 b = none ∨ val32 c = none := by
  unfold pixelInput
  cases val32 a <;> cases val32 b <;> cases val32 c <;> simp

theorem fetchWord_ok (w : Word128) (i : Instr) (h : decode w = .ok i) : fetchWord w = .run i := by
  simp [fetchWord, h]

theorem fetchWord_error (w : Word128) (e : DecodeError) (h : decode w = .error e) : fetchWord w = .illegal e := by
  simp [fetchWord, h]

theorem fetch_command (s : State) (w : Word128) (rest : List HostInput) (h : s.inputs = .command w :: rest) :
    fetch s = fetchWord w := by
  simp [fetch, h]

theorem consume_eq (s : State) (x : HostInput) (rest : List HostInput) (h : s.inputs = x :: rest) :
    consume s = { s with inputs := rest } := by
  simp [consume, h]

end Sys2Proof.Machine
end

