-- ==== Sys2Proof/Laws/Exec.lean ====
section
/-! SUPPORT. One inversion lemma for each meaning: if it answers a next state, then one of these cases holds. Later
proofs cite these and do not unfold the meanings. -/

namespace Sys2Proof.Machine

/-- The state FRAME leaves when it is accepted. -/
abbrev openedFrame (w h : Word32) (f : Fmt) (s : State) : State :=
  { s with st := .active, width := w, height := h, fmt := f, idx := 0, zero := false, oor := false, sat := false,
           err := .none }

/-- The state PIXEL leaves when it is accepted. -/
abbrev packedState (v : Rgb Radiance) (s : State) : State :=
  { s.orFlags v with
    rb := s.rb.write4 (4 * s.idx.toNat) (pixelBytes s.build.range s.fmt v).word, idx := s.idx + 1 }

theorem execFrame_cases (w h : Word32) (f : Fmt) (s t : State) (ht : execFrame w h f s = .next t) :
    (s.st = .active ∧ t = reject .wrongState s) ∨
    (s.st ≠ .active ∧ s.build.rbPixels < w.toNat * h.toNat ∧ t = reject .badArg s) ∨
    (s.st ≠ .active ∧ w.toNat * h.toNat ≤ s.build.rbPixels ∧ t = respond .ok 0 (openedFrame w h f s)) := by
  unfold execFrame at ht
  split at ht
  · next ha => exact .inl ⟨ha, by cases ht; rfl⟩
  · split at ht
    · next ha hb => exact .inr (.inl ⟨ha, hb, by cases ht; rfl⟩)
    · next ha hb => exact .inr (.inr ⟨ha, not_lt.mp hb, by cases ht; rfl⟩)

/-- The accepted PIXEL goes through exactly when its four bytes lie in the raster buffer. -/
theorem packPixel_inside (v : Rgb Radiance) (s : State) (h : 4 * s.idx.toNat + 4 ≤ 4 * s.build.rbPixels) :
    packPixel v s =
      .next (respond .ok ((pixelBytes s.build.range s.fmt v).word.setWidth 64) (packedState v s)) := by
  unfold packPixel pixelOp
  rw [memWrite4_inside (s.orFlags v) _ _ h]
  rfl

theorem packPixel_cases (v : Rgb Radiance) (s t : State) (ht : packPixel v s = .next t) :
    4 * s.idx.toNat + 4 ≤ 4 * s.build.rbPixels ∧
    t = respond .ok ((pixelBytes s.build.range s.fmt v).word.setWidth 64) (packedState v s) := by
  have h : 4 * s.idx.toNat + 4 ≤ 4 * s.build.rbPixels := by
    unfold packPixel pixelOp at ht
    split at ht
    · cases ht
    · next u hu => exact (memWrite4_cases _ _ _ _ hu).1
  rw [packPixel_inside v s h] at ht
  exact ⟨h, by cases ht; rfl⟩

theorem execPixel_cases (a b c : Word32) (s t : State) (ht : execPixel a b c s = .next t) :
    (s.st ≠ .active ∧ t = reject .wrongState s) ∨
    (s.st = .active ∧ s.idx.toNat = s.area ∧ t = frameFault .overrun s) ∨
    (s.st = .active ∧ s.idx.toNat ≠ s.area ∧ pixelInput a b c = none ∧ t = frameFault .input s) ∨
    (∃ v, s.st = .active ∧ s.idx.toNat ≠ s.area ∧ pixelInput a b c = some v ∧
      4 * s.idx.toNat + 4 ≤ 4 * s.build.rbPixels ∧
      t = respond .ok ((pixelBytes s.build.range s.fmt v).word.setWidth 64) (packedState v s)) := by
  unfold execPixel at ht
  split at ht
  · next ha => exact .inl ⟨ha, by cases ht; rfl⟩
  · next ha =>
    have ha := not_not.mp ha
    split at ht
    · next hb => exact .inr (.inl ⟨ha, hb, by cases ht; rfl⟩)
    · next hb =>
      split at ht
      · next hc => exact .inr (.inr (.inl ⟨ha, hb, hc, by cases ht; rfl⟩))
      · next v hv => exact .inr (.inr (.inr ⟨v, ha, hb, hv, packPixel_cases v s t ht⟩))

theorem execFinish_cases (s t : State) (ht : execFinish s = .next t) :
    (s.st ≠ .active ∧ t = reject .wrongState s) ∨
    (s.st = .active ∧ s.idx.toNat ≠ s.area ∧ t = frameFault .length s) ∨
    (s.st = .active ∧ s.idx.toNat = s.area ∧ t = respond .ok 0 { s with st := .done }) := by
  unfold execFinish at ht
  split at ht
  · next ha => exact .inl ⟨ha, by cases ht; rfl⟩
  · next ha =>
    have ha := not_not.mp ha
    split at ht
    · next hb => exact .inr (.inl ⟨ha, hb, by cases ht; rfl⟩)
    · next hb => exact .inr (.inr ⟨ha, not_not.mp hb, by cases ht; rfl⟩)

theorem execRdbuf_cases (p : Word64) (s t : State) (ht : execRdbuf p s = .next t) :
    (s.st ≠ .done ∧ t = reject .wrongState s) ∨
    (s.st = .done ∧ s.area ≤ p.toNat ∧ t = reject .badArg s) ∨
    (s.st = .done ∧ p.toNat < s.area ∧ 4 * p.toNat + 4 ≤ 4 * s.build.rbPixels ∧
      t = respond .ok ((s.rb.read4 (4 * p.toNat)).setWidth 64) s) := by
  unfold execRdbuf at ht
  split at ht
  · next ha => exact .inl ⟨ha, by cases ht; rfl⟩
  · next ha =>
    have ha := not_not.mp ha
    split at ht
    · next hb => exact .inr (.inl ⟨ha, hb, by cases ht; rfl⟩)
    · next hb =>
      split at ht
      · cases ht
      · next v hv =>
        obtain ⟨h1, rfl⟩ := memRead4_cases _ _ _ hv
        exact .inr (.inr ⟨ha, not_le.mp hb, h1, by cases ht; rfl⟩)

end Sys2Proof.Machine
end

