-- ==== Sys2Proof/Laws/PerInstr.lean ====
section
/-! SUPPORT. One lemma for each command: its word selects its own row of opcode_table.json. -/

namespace Sys2Proof.Laws.SelectsOwnRow

/-- The word of the command selects the command's row: "(w & mask) = match" (30_encoding.md, opening). -/
def Statement (i : Instr) : Prop := i.row.selects (encode i) = true

theorem frame (width height : Word32) (fmt : Fmt) : Statement (.frame width height fmt) := by
  simp only [Statement, OpcodeRow.selects, decide_eq_true_eq]
  apply BitVec.eq_of_getLsbD_eq
  intro i hi
  rw [BitVec.getLsbD_and, encode, Command.getLsbD_toWord _ _ hi]
  cases fmt <;> interval_cases i <;> simp [Instr.row, Instr.command, Fmt.bit]

theorem pixel (r g b : Word32) : Statement (.pixel r g b) := by
  simp only [Statement, OpcodeRow.selects, decide_eq_true_eq]
  apply BitVec.eq_of_getLsbD_eq
  intro i hi
  rw [BitVec.getLsbD_and, encode, Command.getLsbD_toWord _ _ hi]
  interval_cases i <;> simp [Instr.row, Instr.command]

theorem finish : Statement .finish := by unfold Statement; decide

theorem clear : Statement .clear := by unfold Statement; decide

theorem rdstat : Statement .rdstat := by unfold Statement; decide

theorem rdcfg : Statement .rdcfg := by unfold Statement; decide

theorem rdcnt : Statement .rdcnt := by unfold Statement; decide

theorem rdbuf (index : Word64) : Statement (.rdbuf index) := by
  simp only [Statement, OpcodeRow.selects, decide_eq_true_eq]
  apply BitVec.eq_of_getLsbD_eq
  intro i hi
  rw [BitVec.getLsbD_and, encode, Command.getLsbD_toWord _ _ hi]
  interval_cases i <;> simp [Instr.row, Instr.command]

end Sys2Proof.Laws.SelectsOwnRow
end

