-- ==== Sys2Proof/Tests/Slice0.lean ====
section
/-! SUPPORT. The model's own tests. Expected values come from spec/95_test_vectors.md (rows V, W, P, E), 93 X7 and the rules,
never from the model. The witnesses of the obligations are in Tests/Witnesses.lean. -/

namespace Sys2Proof.Tests

open Sys2Proof.Machine

-- One proof at a time: many `decide +kernel` at once would wait on each other, each in a thread of its own.
set_option Elab.async false

/-! ## Helpers -/

def answer (o : Host.Outcome State Fault Refusal) : Option State :=
  match o with
  | .next t => some t
  | .fault _ => none
  | .refused _ => none

theorem next_of_answer {o : Host.Outcome State Fault Refusal} {t : State} (h : answer o = some t) : o = .next t := by
  cases o <;> simp_all [answer]

theorem exists_next {o : Host.Outcome State Fault Refusal} {p : State → Bool} (h : (answer o).any p = true) :
    ∃ t, o = .next t ∧ p t = true := by
  cases o <;> simp_all [answer]

/-- The response word and STATE, IDX after an outcome. -/
def shown (o : Host.Outcome State Fault Refusal) : Option (Option Word128 × FrameState × Word64) :=
  (answer o).map (fun t => (t.response.map Response.word, t.st, t.idx))

/-- The bytes of the pixel (1, 1, 1) in Rgbm at address 0 (V6). -/
def grey : Memory := [(0, 253), (1, 253), (2, 253), (3, 43)]

/-- The setups of 95_test_vectors.md, section 2.4. -/
def active0 : State := { State.reset with st := .active, width := 1, height := 1 }
def active1 : State := { active0 with idx := 1, rb := grey }
def done1 : State := { active1 with st := .done }
def error0 : State := { active0 with st := .error, err := .input }

def send (s : State) (w : Word128) : State := { s with inputs := [.command w] }

/-! ## Encoding -/

theorem test_decode_frame : decode 0x00000001_00000001_00000002_00000001#128 = .ok (.frame 2 1 .rgba) := by decide
theorem test_decode_pixel :
    decode 0x00000000_40400000_7f800000_00000002#128 = .ok (.pixel 0x7f800000#32 0x40400000#32 0#32) := by decide
theorem test_decode_finish : decode 3#128 = .ok .finish := by decide
theorem test_decode_clear : decode 4#128 = .ok .clear := by decide
theorem test_decode_rdstat : decode 5#128 = .ok .rdstat := by decide
theorem test_decode_rdcfg : decode 6#128 = .ok .rdcfg := by decide
theorem test_decode_rdcnt : decode 7#128 = .ok .rdcnt := by decide
theorem test_decode_rdbuf :
    decode 0x00000000_00000001_00000002_00000008#128 = .ok (.rdbuf 0x00000001_00000002#64) := by decide
theorem test_encode_frame : encode (.frame 2 1 .rgba) = 0x00000001_00000001_00000002_00000001#128 := by decide
theorem test_encode_rdbuf : encode (.rdbuf 0x00000001_00000002#64) = 0x00000000_00000001_00000002_00000008#128 := by decide
theorem test_table_word : decodeTableWord 128 0x000000010000000500000000_00000001 = some (.frame 0 5 .rgba) := by decide
theorem test_table_short_word : decodeTableWord 8 0x04 = some .clear := by decide

/-! A term that each check of R72 refuses (W1 to W10). -/

theorem test_wf_opcode_zero : (Command.wellFormed ⟨0x00#8, 0, 0, 0, 0⟩) = false := by decide
theorem test_wf_opcode_nine : (Command.wellFormed ⟨0x09#8, 0, 0, 0, 0⟩) = false := by decide
theorem test_wf_rsv : (Command.wellFormed ⟨0x01#8, 1, 1, 1, 0⟩) = false := by decide
theorem test_wf_rsv_pixel : (Command.wellFormed ⟨0x02#8, 0x800000#24, 0, 0, 0⟩) = false := by decide
theorem test_wf_frame_c : (Command.wellFormed ⟨0x01#8, 0, 1, 1, 0x80000000#32⟩) = false := by decide
theorem test_wf_finish_a : (Command.wellFormed ⟨0x03#8, 0, 1, 0, 0⟩) = false := by decide
theorem test_wf_rdstat_b : (Command.wellFormed ⟨0x05#8, 0, 0, 1, 0⟩) = false := by decide
theorem test_wf_clear_c : (Command.wellFormed ⟨0x04#8, 0, 0, 0, 1⟩) = false := by decide
theorem test_wf_rdbuf_c : (Command.wellFormed ⟨0x08#8, 0, 0, 0, 1⟩) = false := by decide
theorem test_wf_frame_good : (Command.wellFormed ⟨0x01#8, 0, 0xffffffff#32, 0xffffffff#32, 1⟩) = true := by decide
theorem test_reject_opcode : decode 0x09#128 = .error .opcode := by decide
theorem test_reject_rsv : decode 0x00000000_00000000_00000000_80000002#128 = .error .reservedBits := by decide
theorem test_reject_operand : decode 0x00000002_00000001_00000001_00000001#128 = .error .operandBits := by decide

/-! ## One step of each command -/

/-- W12: exactly RB_PIXELS. -/
theorem test_frame_fits : shown (step (send State.reset 0x00000000_00000400_00000400_00000001#128)) =
    some (some 0x00000000_00000001_00000000_00000000#128, .active, 0) := by decide +kernel
/-- W14: the product does not wrap. -/
theorem test_frame_no_wrap : shown (step (send State.reset 0x00000001_ffffffff_ffffffff_00000001#128)) =
    some (some 0x00000003_00000000_00000000_00000000#128, .idle, 0) := by decide +kernel
/-- W21, and RB. -/
theorem test_pixel_packs :
    (answer (step (send active0 0x3f800000_3f800000_3f800000_00000002#128))).map
      (fun t => (t.response.map Response.word, t.idx, t.rb)) =
    some (some 0x00000000_00000001_00000000_2bfdfdfd#128, 1, grey) := by decide +kernel
/-- W30: ERR_OVERRUN before ERR_INPUT. -/
theorem test_pixel_overrun : shown (step (send active1 0x00000000_00000000_7fc00000_00000002#128)) =
    some (some 0x00000004_00000203_00000000_00000000#128, .error, 1) := by decide +kernel
/-- W32. -/
theorem test_finish_done : shown (step (send active1 3#128)) =
    some (some 0x00000000_00000002_00000000_00000000#128, .done, 1) := by decide +kernel
/-- W31. -/
theorem test_finish_short : shown (step (send active0 3#128)) =
    some (some 0x00000004_00000303_00000000_00000000#128, .error, 0) := by decide +kernel
/-- W37, and that RB is kept. -/
theorem test_clear : (answer (step (send done1 4#128))).map (fun t => (t.response.map Response.word, t.idx, t.rb)) =
    some (some 0#128, 0, grey) := by decide +kernel
/-- W39. -/
theorem test_rdstat : shown (step (send error0 5#128)) =
    some (some 0x00000000_00000103_00000000_00000000#128, .error, 0) := by decide +kernel
/-- P4, row 13. -/
theorem test_rdcfg :
    shown (step (send { State.reset with st := .done, height := 5, fmt := .rgba } 6#128)) =
    some (some 0x00000000_00000006_00000005_00000000#128, .done, 0) := by decide +kernel
/-- W42. -/
theorem test_rdcnt : shown (step (send active1 7#128)) =
    some (some 0x00000000_00000001_00000000_00000001#128, .active, 1) := by decide +kernel
/-- W44. -/
theorem test_rdbuf : shown (step (send done1 8#128)) =
    some (some 0x00000000_00000002_00000000_2bfdfdfd#128, .done, 1) := by decide +kernel
/-- W46: all 64 bits of the index count. -/
theorem test_rdbuf_far : shown (step (send done1 0x00000000_ffffffff_ffffffff_00000008#128)) =
    some (some 0x00000003_00000002_00000000_00000000#128, .done, 1) := by decide +kernel
/-- W10: ILLEGAL in DONE. -/
theorem test_illegal : shown (step (send done1 0x00000001_00000000_00000000_00000008#128)) =
    some (some 0x00000001_00000002_00000000_00000000#128, .done, 1) := by decide +kernel
/-- R221, R220: a PIXEL cut by reset has no effect and no response, and RB is the array drawn, its zero bytes unlisted. -/
theorem test_reset_during :
    answer (step { active1 with
      inputs := [.resetDuring 0x3f800000_3f800000_3f800000_00000002#128 [7, 0, 9]],
      response := some ⟨.ok, active1.status, 0⟩ }) =
    some { State.reset with rb := [(0, 7), (2, 9)] } := by decide +kernel
/-- 41_frame_commands.md R141: a zero byte of a pixel is written over what RB held. -/
theorem test_pixel_writes_zero :
    (answer (step (send { active0 with rb := [(0, 1), (2, 2), (5, 3)] } 2#128))).map (fun t => t.rb) =
    some [(3, 1), (5, 3)] := by decide +kernel
/-- R202. -/
theorem test_idle : answer (step done1) = some done1 := by decide +kernel
/-- A word placed by withFetchWord is what the next step runs. -/
theorem test_with_fetch_word : shown (step (State.reset.withFetchWord 128 0x000000000000000200000001_00000001)) =
    some (some 0x00000000_00000001_00000000_00000000#128, .active, 0) := by decide +kernel

/-! ## The datapath, RANGE = 6 -/

def flagsOf (fmt : Fmt) (v : Rgb Radiance) : Bool × Bool × Bool := (pixelZero 6 v, outOfRange 6 v, pixelSat 6 fmt v)

def dataOf (fmt : Fmt) (a b c : Word32) : Option (Word32 × Bool × Bool × Bool) :=
  (pixelInput a b c).map (fun v => ((pixelBytes 6 fmt v).word, flagsOf fmt v))

/-- V2. -/
theorem test_negative_zero_rgbm : dataOf .rgbm 0x80000000#32 0x80000000#32 0#32 = some (0x01000000#32, true, false, false) := by
  decide +kernel
/-- V8. -/
theorem test_v8_rgbm : dataOf .rgbm 0x3F000000#32 0x3E800000#32 0x3F800000#32 = some (0x2bfd407f#32, false, false, false) := by
  decide +kernel
theorem test_v8_rgba : dataOf .rgba 0x3F000000#32 0x3E800000#32 0x3F800000#32 = some (0xffff3f7f#32, false, false, false) := by
  decide +kernel
/-- V13, V14: the step from k = 1 to k = 2. -/
theorem test_v13_rgbm : dataOf .rgbm 0x3CC0C0C0#32 0#32 0#32 = some (0x010000ff#32, false, false, false) := by decide +kernel
theorem test_v14_rgbm : dataOf .rgbm 0x3CC0C0C1#32 0#32 0#32 = some (0x02000080#32, false, false, false) := by decide +kernel
/-- V17, V18: where the reconstructor begins to saturate. -/
theorem test_v17_rgba : dataOf .rgba 0x3F810000#32 0#32 0#32 = some (0xff0000ff#32, false, false, true) := by decide +kernel
theorem test_v18_rgba : dataOf .rgba 0x3F808080#32 0#32 0#32 = some (0xff0000ff#32, false, false, false) := by decide +kernel
/-- V19: the smallest subnormal is not flushed. -/
theorem test_v19_rgbm : dataOf .rgbm 0x00000001#32 0#32 0#32 = some (0x01000001#32, false, false, false) := by decide +kernel
/-- V25: PINF is clamped. -/
theorem test_v25_rgbm : dataOf .rgbm 0x7F800000#32 0x40400000#32 0#32 = some (0xff0080ff#32, false, true, false) := by
  decide +kernel
theorem test_v25_rgba : dataOf .rgba 0x7F800000#32 0x40400000#32 0#32 = some (0xff00ffff#32, false, true, true) := by
  decide +kernel
/-- 93_implementation_defined.md X7, second row: exact arithmetic, not binary32. -/
theorem test_x7_rgbm : dataOf .rgbm 0x4030FFE6#32 0x409BDBDC#32 0x3F2DB4BF#32 = some (0xd024fe91#32, false, false, false) := by
  decide +kernel
/-- 95_test_vectors.md, section 2.1. -/
theorem test_val32_invalid : val32 0x7F800001#32 = none ∧ val32 0xFF800000#32 = none ∧ val32 0x80000001#32 = none := by
  decide +kernel
theorem test_val32_values : val32 0x40C00001#32 = some (.num (6 + 1 / 2 ^ 21)) ∧ val32 0x7F800000#32 = some .pinf ∧
    val32 0x7F7FFFFF#32 = some (.num ((2 ^ 24 - 1) * 2 ^ 104)) := by decide +kernel
/-- 95_test_vectors.md, section 2.3. -/
theorem test_sat8 : sat8 254 = 254 ∧ sat8 255 = 255 ∧ sat8 256 = 255 ∧ sat8 1530 = 255 ∧ satd 255 = false ∧
    satd 256 = true := by decide +kernel

/-! ## The assembler -/

/-- P5, row 2, with a comment. -/
theorem test_assemble_pixel :
    assembleLine "PIXEL 2.0, 1.0, 0.5 ; a pixel".toList = .ok (some (.pixel 0x40000000#32 0x3f800000#32 0x3f000000#32)) := by
  decide +kernel
/-- P5, rows 1, 3, 7 and 8, one command a line. -/
theorem test_assemble_lines :
    assemble "FRAME 3, 1, rgba\n BLACK\n\nRDBUF 0x100000000\nNOP".toList =
      .ok [.frame 3 1 .rgba, .pixel 0 0 0, .rdbuf 0x100000000#64, .rdstat] := by decide +kernel
/-- "must be exactly representable": 0.1 is not; -0.0 is. -/
theorem test_assemble_inexact : assembleLine "PIXEL 0.1, 0.0, 0.0".toList = .error .inexact := by decide +kernel
theorem test_assemble_range : assembleLine "FRAME 4294967296, 1, rgbm".toList = .error .range := by decide +kernel

end Sys2Proof.Tests
end

