-- ==== Sys2Proof/Tests/Witnesses.lean ====
section
/-! SUPPORT. For every obligation that has hypotheses, a concrete state and operands that meet them all together, clause by
clause where it has several, at the boundary values of its clauses. -/

namespace Sys2Proof.Tests

open Sys2Proof.Machine

-- One proof at a time: many `decide +kernel` at once would wait on each other, each in a thread of its own.
set_option Elab.async false

/-! ## The setups meet the invariant -/

theorem inv_reset : State.reset.Inv := by
  constructor <;> simp [State.reset, State.resetOf, State.area, Memory.ofBytes, Memory.wf]

theorem inv_active0 : active0.Inv := by
  constructor <;> simp [active0, State.reset, State.resetOf, State.area, Config.defaultBuild, Memory.ofBytes, Memory.wf]

/-- The grey pixel is packed, and the frame is open or finished. -/
theorem inv_packed (st : FrameState) (h : st = .active ∨ st = .done) : State.Inv { active1 with st := st } := by
  constructor
  case response_fresh => intro r hr; cases hr
  all_goals rcases h with rfl | rfl <;> decide

theorem inv_active1 : active1.Inv := inv_packed .active (.inl rfl)
theorem inv_done1 : done1.Inv := inv_packed .done (.inr rfl)

theorem inv_error0 : error0.Inv := by
  constructor <;>
    simp [error0, active0, State.reset, State.resetOf, State.area, Config.defaultBuild, Memory.ofBytes, Memory.wf]

theorem inv_send {s : State} (h : s.Inv) (w : Word128) : (send s w).Inv :=
  ⟨h.idx_le, h.done_full, h.fits, h.err_iff, h.idle_clear, h.rb_wf, h.rb_inside, h.response_fresh⟩

theorem sends_send (s : State) (w : Word128) : (send s w).Sends w [] := rfl

/-! ## Encoding -/

theorem witness_EncodeOfDecodeIsWord : ∃ w i, decode w = .ok i := ⟨5, .rdstat, by decide⟩

theorem witness_WellFormedWordsAreTheOnesThatDecode :
    ∃ (w : Word128) (s : State) (rest : List HostInput), s.Sends w rest ∧ (Command.ofWord w).wellFormed = false :=
  ⟨0x09, send done1 0x09, [], rfl, by decide⟩

theorem witness_IllegalWordsAreRejected :
    ∃ (s : State) (w : Word128) (rest : List HostInput) (e : DecodeError), s.Sends w rest ∧ decode w = .error e :=
  ⟨send active0 0x0103, 0x0103, [], .reservedBits, rfl, by decide⟩

theorem witness_TableSelectsTheDecodedRow :
    (∃ r1 ∈ opcodeTable, ∃ r2 ∈ opcodeTable, r1.selects 3 = true ∧ r2.selects 3 = true) ∧ (∃ w i, decode w = .ok i) :=
  ⟨by decide, 8, .rdbuf 0, by decide⟩

/-! ## The step, the ports and reset -/

theorem witness_StepRunsDecodedCommand :
    ∃ (s : State) (w : Word128) (rest : List HostInput) (i : Instr), s.Sends w rest ∧ decode w = .ok i :=
  ⟨send done1 8, 8, [], .rdbuf 0, rfl, by decide⟩

theorem witness_OnlyCommandsAndResetChangeState :
    (∃ s : State, s.inputs = []) ∧ (∃ s t : State, step s = .next t ∧ t ≠ s) :=
  ⟨⟨done1, rfl⟩, send active1 3, { done1 with response := some ⟨.ok, done1.status, 0⟩ },
    next_of_answer (by decide +kernel), by decide⟩

theorem witness_ResetPutsEveryRegister :
    (∃ (s : State) (draw : List Byte) (rest : List HostInput), s.inputs = .reset draw :: rest ∧ s.Resets draw rest) ∧
    (∃ (s : State) (draw : List Byte) (rest : List HostInput) (w : Word128),
      s.inputs = .resetDuring w draw :: rest ∧ s.Resets draw rest) :=
  ⟨⟨{ done1 with inputs := [.reset [1]] }, [1], [], rfl, .inl rfl⟩,
    { active1 with inputs := [.resetDuring 3 []] }, [], [], 3, rfl, .inr ⟨3, rfl⟩⟩

/-- The last byte of a raster buffer of two pixels is drawn. -/
theorem witness_ResetLeavesAnArbitraryRaster :
    ∃ (s : State) (draw : List Byte) (rest : List HostInput) (a : Nat) (b : Byte), s.Resets draw rest ∧
      a + 1 = 4 * s.build.rbPixels ∧ draw[a]? = some b :=
  ⟨{ done1 with build := ⟨6, 2, by decide, by decide⟩, inputs := [.resetDuring 3 [1, 2, 3, 4, 5, 6, 7, 8]] },
    [1, 2, 3, 4, 5, 6, 7, 8], [], 7, 8, .inr ⟨3, rfl⟩, by decide, by decide⟩

theorem witness_EveryCommandGetsOneResponse :
    ∃ (s : State) (w : Word128) (rest : List HostInput), s.Inv ∧ s.Sends w rest :=
  ⟨send done1 8, 8, [], inv_send inv_done1 8, rfl⟩

/-- An instruction at a state, with the response code it gets. -/
theorem answered (i : Instr) (s : State) (code : RespCode)
    (h : (answer (exec i s)).any (fun t => t.response.any (fun r => decide (r.resp = code))) = true) :
    ∃ t r, exec i s = .next t ∧ t.response = some r ∧ r.resp = code := by
  obtain ⟨t, ht, hp⟩ := exists_next h
  cases hr : t.response with
  | none => simp [hr] at hp
  | some r => exact ⟨t, r, ht, hr, by simpa [hr] using hp⟩

theorem witness_ResponseDataByCommand :
    (∃ t r, exec .finish active0 = .next t ∧ t.response = some r ∧ r.resp = .fault) ∧
    (∃ t r, exec (.pixel 0 0 0) active0 = .next t ∧ t.response = some r ∧ r.resp = .ok) ∧
    (∃ t r, exec .rdcfg done1 = .next t ∧ t.response = some r ∧ r.resp = .ok) ∧
    (∃ t r, exec .rdcnt done1 = .next t ∧ t.response = some r ∧ r.resp = .ok) ∧
    (∃ t r, exec (.rdbuf 0) done1 = .next t ∧ t.response = some r ∧ r.resp = .ok) ∧
    (∃ t r, exec (.frame 1 1 .rgba) done1 = .next t ∧ t.response = some r ∧ r.resp = .ok) ∧
    (∃ t r, exec .finish active1 = .next t ∧ t.response = some r ∧ r.resp = .ok) ∧
    (∃ t r, exec .clear active1 = .next t ∧ t.response = some r ∧ r.resp = .ok) ∧
    (∃ t r, exec .rdstat active1 = .next t ∧ t.response = some r ∧ r.resp = .ok) :=
  ⟨answered _ _ _ (by decide +kernel), answered _ _ _ (by decide +kernel), answered _ _ _ (by decide +kernel),
    answered _ _ _ (by decide +kernel), answered _ _ _ (by decide +kernel), answered _ _ _ (by decide +kernel),
    answered _ _ _ (by decide +kernel), answered _ _ _ (by decide +kernel), answered _ _ _ (by decide +kernel)⟩

/-! ## The commands -/

/-- A word of an opcode that the host presents, ill-formed or not. -/
theorem witness_word (s : State) (w : Word128) (op : Byte) (h : w.extractLsb' 0 8 = op) :
    (send s w).Sends w [] ∧ w.extractLsb' 0 8 = op := ⟨rfl, h⟩

theorem witness_FrameFollowsItsRule :
    (∃ (s : State) (w : Word128) (rest : List HostInput), s.Sends w rest ∧ w.extractLsb' 0 8 = 0x01#8 ∧
      ¬ (w.extractLsb' 8 24 = 0 ∧ w.extractLsb' 97 31 = 0)) ∧
    (∃ (s : State) (w : Word128) (rest : List HostInput), s.Sends w rest ∧ w.extractLsb' 0 8 = 0x01#8 ∧
      w.extractLsb' 8 24 = 0 ∧ w.extractLsb' 97 31 = 0) ∧
    active0.st = .active ∧
    (∃ w h : Word32, done1.st ≠ .active ∧ done1.build.rbPixels < w.toNat * h.toNat ∧
      w.toNat * h.toNat = done1.build.rbPixels + 1) ∧
    (∃ w h : Word32, error0.st ≠ .active ∧ w.toNat * h.toNat ≤ error0.build.rbPixels ∧
      w.toNat * h.toNat = error0.build.rbPixels) ∧
    (∃ t, exec (.pixel 0 0 0) active0 = .next t) ∧ (∀ w h f, Instr.pixel 0 0 0 ≠ .frame w h f) ∧
    Instr.pixel 0 0 0 ≠ .clear :=
  ⟨⟨send done1 _, 0x80000000_00000001_00000001_00000001#128, [], rfl, by decide, by decide⟩,
    ⟨send done1 _, 0x00000001_00000001_00000001_00000001#128, [], rfl, by decide, by decide, by decide⟩, rfl,
    ⟨1048577, 1, by decide, by decide, by decide⟩, ⟨1024, 1024, by decide, by decide, by decide⟩,
    (exists_next (p := fun _ => true) (by decide +kernel)).imp (fun _ h => h.1), (by intro _ _ _ h; cases h), by decide⟩

theorem witness_PixelFollowsItsRule :
    (∃ (s : State) (w : Word128) (rest : List HostInput), s.Sends w rest ∧ w.extractLsb' 0 8 = 0x02#8 ∧
      w.extractLsb' 8 24 ≠ 0) ∧
    (∃ (s : State) (w : Word128) (rest : List HostInput), s.Sends w rest ∧ w.extractLsb' 0 8 = 0x02#8 ∧
      w.extractLsb' 8 24 = 0) ∧
    done1.st ≠ .active ∧ (active1.st = .active ∧ active1.idx.toNat = active1.area) ∧
    (active0.st = .active ∧ active0.idx.toNat ≠ active0.area ∧ val32 0x80000001#32 = none) ∧
    (active0.st = .active ∧ active0.idx.toNat < active0.area ∧ active0.area ≤ active0.build.rbPixels ∧
      val32 0x7F800000#32 = some .pinf ∧ val32 0x80000000#32 = some (.num 0)) :=
  ⟨⟨send active0 _, 0x102#128, [], rfl, by decide, by decide⟩, ⟨send active0 _, 0x2#128, [], rfl, by decide, by decide⟩,
    by decide, by decide, by decide +kernel, by decide +kernel⟩

theorem witness_FinishFollowsItsRule :
    (∃ (s : State) (w : Word128) (rest : List HostInput), s.Sends w rest ∧ w.extractLsb' 0 8 = 0x03#8 ∧
      w.extractLsb' 8 120 ≠ 0) ∧
    (∃ (s : State) (w : Word128) (rest : List HostInput), s.Sends w rest ∧ w.extractLsb' 0 8 = 0x03#8 ∧
      w.extractLsb' 8 120 = 0) ∧
    done1.st ≠ .active ∧ (active0.st = .active ∧ active0.idx.toNat ≠ active0.area) ∧
    (active1.st = .active ∧ active1.idx.toNat = active1.area ∧ active1.Inv) :=
  ⟨⟨send active0 _, 0x80000000_00000000_00000000_00000003#128, [], rfl, by decide, by decide⟩,
    ⟨send active0 _, 0x3#128, [], rfl, by decide, by decide⟩, by decide, by decide, by decide, by decide, inv_active1⟩

theorem witness_ClearFollowsItsRule :
    (∃ (s : State) (w : Word128) (rest : List HostInput), s.Sends w rest ∧ w.extractLsb' 0 8 = 0x04#8 ∧
      w.extractLsb' 8 120 ≠ 0) ∧
    (∃ (s : State) (w : Word128) (rest : List HostInput), s.Sends w rest ∧ w.extractLsb' 0 8 = 0x04#8 ∧
      w.extractLsb' 8 120 = 0) :=
  ⟨⟨send active0 _, 0x104#128, [], rfl, by decide, by decide⟩, send active0 _, 0x4#128, [], rfl, by decide, by decide⟩

theorem witness_RdstatFollowsItsRule :
    (∃ (s : State) (w : Word128) (rest : List HostInput), s.Sends w rest ∧ w.extractLsb' 0 8 = 0x05#8 ∧
      w.extractLsb' 8 120 ≠ 0) ∧
    (∃ (s : State) (w : Word128) (rest : List HostInput), s.Sends w rest ∧ w.extractLsb' 0 8 = 0x05#8 ∧
      w.extractLsb' 8 120 = 0) :=
  ⟨⟨send active0 _, 0x105#128, [], rfl, by decide, by decide⟩, send active0 _, 0x5#128, [], rfl, by decide, by decide⟩

theorem witness_RdcfgFollowsItsRule :
    (∃ (s : State) (w : Word128) (rest : List HostInput), s.Sends w rest ∧ w.extractLsb' 0 8 = 0x06#8 ∧
      w.extractLsb' 8 120 ≠ 0) ∧
    (∃ (s : State) (w : Word128) (rest : List HostInput), s.Sends w rest ∧ w.extractLsb' 0 8 = 0x06#8 ∧
      w.extractLsb' 8 120 = 0) :=
  ⟨⟨send active0 _, 0x106#128, [], rfl, by decide, by decide⟩, send active0 _, 0x6#128, [], rfl, by decide, by decide⟩

theorem witness_RdcntFollowsItsRule :
    (∃ (s : State) (w : Word128) (rest : List HostInput), s.Sends w rest ∧ w.extractLsb' 0 8 = 0x07#8 ∧
      w.extractLsb' 8 120 ≠ 0) ∧
    (∃ (s : State) (w : Word128) (rest : List HostInput), s.Sends w rest ∧ w.extractLsb' 0 8 = 0x07#8 ∧
      w.extractLsb' 8 120 = 0) ∧
    (∃ t r, exec (.pixel 0 0 0) active1 = .next t ∧ t.response = some r ∧ r.resp = .fault) :=
  ⟨⟨send active0 _, 0x107#128, [], rfl, by decide, by decide⟩, ⟨send active0 _, 0x7#128, [], rfl, by decide, by decide⟩,
    answered _ _ _ (by decide +kernel)⟩

theorem witness_RdbufFollowsItsRule :
    (∃ (s : State) (w : Word128) (rest : List HostInput), s.Sends w rest ∧ w.extractLsb' 0 8 = 0x08#8 ∧
      ¬ (w.extractLsb' 8 24 = 0 ∧ w.extractLsb' 96 32 = 0)) ∧
    (∃ (s : State) (w : Word128) (rest : List HostInput), s.Sends w rest ∧ w.extractLsb' 0 8 = 0x08#8 ∧
      w.extractLsb' 8 24 = 0 ∧ w.extractLsb' 96 32 = 0) ∧
    active1.st ≠ .done ∧ (done1.st = .done ∧ done1.area ≤ (1#64).toNat ∧ done1.area = (1#64).toNat) ∧
    (done1.st = .done ∧ (0#64).toNat < done1.area ∧ done1.area ≤ done1.build.rbPixels) :=
  ⟨⟨send done1 _, 0x00000001_00000000_00000000_00000008#128, [], rfl, by decide, by decide⟩,
    ⟨send done1 _, 0x00000000_ffffffff_ffffffff_00000008#128, [], rfl, by decide, by decide, by decide⟩, by decide,
    by decide, by decide⟩

/-! ## Rejections, faults and the frame state machine -/

theorem witness_RejectedCommandsChangeNothing :
    (∃ t r, exec .finish done1 = .next t ∧ t.response = some r ∧ r.resp = .wrongState) ∧
    (∃ t r, exec (.rdbuf 1) done1 = .next t ∧ t.response = some r ∧ r.resp = .badArg) ∧
    (∃ (s : State) (w : Word128) (rest : List HostInput) (e : DecodeError), s.Sends w rest ∧ decode w = .error e) :=
  ⟨answered _ _ _ (by decide +kernel), answered _ _ _ (by decide +kernel), send active1 0, 0, [], .opcode, rfl, by decide⟩

theorem witness_RejectionCauses :
    (∃ t, (send done1 0x0108).Sends 0x0108 [] ∧ step (send done1 0x0108) = .next t ∧ t.response.isSome = true) ∧
    (∃ t r, exec (.frame 0 0 .rgbm) active0 = .next t ∧ t.response = some r ∧ r.resp = .wrongState) ∧
    (∃ t r, exec (.pixel 0 0 0) done1 = .next t ∧ t.response = some r ∧ r.resp = .wrongState) ∧
    (∃ t r, exec (.rdbuf 0) active1 = .next t ∧ t.response = some r ∧ r.resp = .wrongState) ∧
    (∃ t r, exec (.frame 1025 1024 .rgbm) error0 = .next t ∧ t.response = some r ∧ r.resp = .badArg) ∧
    (∃ t r, exec (.rdbuf 1) done1 = .next t ∧ t.response = some r ∧ r.resp = .badArg) :=
  ⟨(exists_next (p := fun t => t.response.isSome) (by decide +kernel)).imp (fun _ h => ⟨rfl, h.1, h.2⟩),
    answered _ _ _ (by decide +kernel), answered _ _ _ (by decide +kernel), answered _ _ _ (by decide +kernel),
    answered _ _ _ (by decide +kernel), answered _ _ _ (by decide +kernel)⟩

theorem witness_FrameFaultsArePrecise :
    (∃ t r, exec (.pixel 0x7fc00000#32 0 0) active1 = .next t ∧ t.response = some r ∧ r.resp = .fault) ∧
    (∃ t r, exec (.pixel 0 0 0xffc00001#32) active0 = .next t ∧ t.response = some r ∧ r.resp = .fault) ∧
    (∃ t r, exec .finish active0 = .next t ∧ t.response = some r ∧ r.resp = .fault) ∧
    (active1.st = .active ∧ active1.idx.toNat = active1.area) ∧
    (active0.st = .active ∧ active0.idx.toNat < active0.area ∧ val32 0xff800000#32 = none) ∧ error0.st = .error :=
  ⟨answered _ _ _ (by decide +kernel), answered _ _ _ (by decide +kernel), answered _ _ _ (by decide +kernel),
    by decide, by decide +kernel, rfl⟩

theorem witness_ChecksRunInOrder :
    ((send State.reset 0x80000002).Sends 0x80000002 [] ∧ (Command.ofWord 0x80000002).wellFormed = false) ∧
    (active0.st = .active ∧ active0.build.rbPixels < (65536#32).toNat * (65536#32).toNat) ∧
    (active1.st ≠ .done ∧ active1.area ≤ (1#64).toNat) ∧
    (done1.st ≠ .active ∧ done1.idx.toNat = done1.area ∧ val32 0x7fc00000#32 = none) ∧
    (active1.st = .active ∧ active1.idx.toNat = active1.area ∧ val32 0x7fc00000#32 = none) ∧
    (error0.st ≠ .active ∧ error0.idx.toNat ≠ error0.area) :=
  ⟨⟨rfl, by decide⟩, by decide, by decide, by decide +kernel, by decide +kernel, by decide⟩

theorem witness_ErrorStateIsLeftOnlyByClearFrameOrReset :
    (∃ t, error0.st = .error ∧ step (send error0 4) = .next t ∧ t.st ≠ .error) ∧
    (∃ t, step (send error0 0x00000000_00000001_00000001_00000001#128) = .next t ∧ t.st ≠ .error) ∧
    (∃ t, step { error0 with inputs := [.reset []] } = .next t ∧ t.st ≠ .error) ∧
    (∃ t, step (send error0 3) = .next t ∧ t.st = .error ∧ t.response.isSome = true) := by
  refine ⟨?_, ?_, ?_, ?_⟩
  · obtain ⟨t, h, hp⟩ := exists_next (o := step (send error0 4)) (p := fun t => decide (t.st ≠ .error)) (by decide +kernel)
    exact ⟨t, rfl, h, by simpa using hp⟩
  · obtain ⟨t, h, hp⟩ := exists_next (o := step (send error0 0x00000000_00000001_00000001_00000001#128))
      (p := fun t => decide (t.st ≠ .error)) (by decide +kernel)
    exact ⟨t, h, by simpa using hp⟩
  · obtain ⟨t, h, hp⟩ := exists_next (o := step { error0 with inputs := [.reset []] })
      (p := fun t => decide (t.st ≠ .error)) (by decide +kernel)
    exact ⟨t, h, by simpa using hp⟩
  · obtain ⟨t, h, hp⟩ := exists_next (o := step (send error0 3))
      (p := fun t => decide (t.st = .error) && t.response.isSome) (by decide +kernel)
    exact ⟨t, h, by simpa using hp⟩

theorem witness_TransitionsFollowTheTable :
    (active1.Inv ∧ ∃ t r, exec .finish active1 = .next t ∧ t.response = some r ∧ r.resp = .ok) ∧
    (∃ t r, exec (.pixel 0 0 0) active0 = .next t ∧ t.response = some r ∧ r.resp = .ok) ∧
    ((send active1 0).Sends 0 [] ∧ (Command.ofWord 0).wellFormed = false) ∧
    (∃ (s : State) (draw : List Byte) (rest : List HostInput), s.Resets draw rest) :=
  ⟨⟨inv_active1, answered _ _ _ (by decide +kernel)⟩, answered _ _ _ (by decide +kernel), ⟨rfl, by decide⟩,
    { error0 with inputs := [.reset []] }, [], [], .inl rfl⟩

theorem witness_StickyFlagsFollowTheirRule :
    (val32 0x7F800000#32 = some .pinf ∧ val32 0x3F810000#32 = some (.num (129 / 128)) ∧ val32 0#32 = some (.num 0)) ∧
    (∃ t r, exec (.pixel 0x7F800000#32 0x3F810000#32 0) { active0 with fmt := .rgba } = .next t ∧
      t.response = some r ∧ r.resp = .ok) ∧
    (∃ t r, exec .rdstat { active1 with zero := true } = .next t ∧ t.response = some r ∧ r.resp = .ok) ∧
    (∃ t r, exec (.frame 1 1 .rgbm) { done1 with sat := true } = .next t ∧ t.response = some r ∧ r.resp = .ok) ∧
    (∃ t r, exec .clear { done1 with oor := true } = .next t ∧ t.response = some r ∧ r.resp = .ok) ∧
    (∃ (s : State) (draw : List Byte) (rest : List HostInput), s.Resets draw rest) :=
  ⟨by decide +kernel, answered _ _ _ (by decide +kernel), answered _ _ _ (by decide +kernel),
    answered _ _ _ (by decide +kernel), answered _ _ _ (by decide +kernel), { done1 with inputs := [.reset [0]] }, [0], [],
    .inl rfl⟩

theorem witness_ConfigurationIsLatchedByFrame :
    (∃ t, step (send done1 0x00000001_00000001_00000002_00000001#128) = .next t ∧
      (t.width, t.height, t.fmt) ≠ (done1.width, done1.height, done1.fmt)) ∧
    (∃ t, step (send done1 4) = .next t ∧ (t.width, t.height, t.fmt) ≠ (done1.width, done1.height, done1.fmt)) := by
  constructor
  · obtain ⟨t, h, hp⟩ := exists_next (o := step (send done1 0x00000001_00000001_00000002_00000001#128))
      (p := fun t => decide ((t.width, t.height, t.fmt) ≠ (done1.width, done1.height, done1.fmt))) (by decide +kernel)
    exact ⟨t, h, of_decide_eq_true hp⟩
  · obtain ⟨t, h, hp⟩ := exists_next (o := step (send done1 4))
      (p := fun t => decide ((t.width, t.height, t.fmt) ≠ (done1.width, done1.height, done1.fmt))) (by decide +kernel)
    exact ⟨t, h, of_decide_eq_true hp⟩

theorem witness_BuildParametersNeverChange : ∃ s t : State, step s = .next t :=
  ⟨{ done1 with inputs := [.reset []] }, State.reset, next_of_answer (by decide +kernel)⟩

/-! ## The raster buffer -/

theorem witness_BytesArePlacedLeastSignificantFirst : 3 < 4 ∧ ((3 : Nat) < 4 ∨ 4 + 4 ≤ 3) ∧ ((8 : Nat) < 4 ∨ 4 + 4 ≤ 8) := by
  decide

theorem witness_OnlyAcceptedPixelsWriteTheRaster :
    (∃ t, exec .finish active1 = .next t) ∧ (∀ a b c, Instr.finish ≠ .pixel a b c) ∧
    (∃ t r, exec (.pixel 0 0 0) active1 = .next t ∧ t.response = some r ∧ r.resp = .fault) ∧
    ((3 : Nat) < 4 * active1.idx.toNat ∨ 4 * active1.idx.toNat + 4 ≤ 3) ∧
    ((8 : Nat) < 4 * active1.idx.toNat ∨ 4 * active1.idx.toNat + 4 ≤ 8) :=
  ⟨(exists_next (p := fun _ => true) (by decide +kernel)).imp (fun _ h => h.1), (by intro _ _ _ h; cases h),
    answered _ _ _ (by decide +kernel), by decide, by decide⟩

theorem witness_DoneStatesHaveTheWholeRaster : (active1.Inv ∧ active1.st ≠ .done) ∧ (done1.Inv ∧ done1.st = .done) :=
  ⟨⟨inv_active1, by decide⟩, inv_done1, rfl⟩

/-- Two open frames with one pixel packed: RB differs beyond it, and so does what the next reset draws. -/
theorem witness_UnwrittenBytesAreNeverObserved :
    ∃ s1 s2 : State, s1.Inv ∧ s2.Inv ∧ s1.Alike s2 ∧ s1.rb ≠ s2.rb ∧ s1.inputs ≠ s2.inputs := by
  refine ⟨{ active1 with inputs := [.reset [1]] }, { active1 with rb := grey ++ [(4, 9)], inputs := [.reset [2]] },
    ?_, ?_, ?_, by decide, by decide⟩
  · exact ⟨inv_active1.idx_le, inv_active1.done_full, inv_active1.fits, inv_active1.err_iff, inv_active1.idle_clear,
      inv_active1.rb_wf, inv_active1.rb_inside, inv_active1.response_fresh⟩
  · exact ⟨inv_active1.idx_le, inv_active1.done_full, inv_active1.fits, inv_active1.err_iff, inv_active1.idle_clear,
      by decide, by decide, inv_active1.response_fresh⟩
  · constructor
    case written => decide
    all_goals decide

theorem witness_RowMajorIndicesAreReadable :
    done1.Inv ∧ done1.st = .done ∧ 0 < done1.width.toNat ∧ 0 < done1.height.toNat :=
  ⟨inv_done1, rfl, by decide, by decide⟩

/-! ## The datapath -/

theorem witness_Val32DecodesBinary32 :
    (∃ s e f : Nat, s = (0x80000001#32).toNat / 2 ^ 31 ∧ e = (0x80000001#32).toNat / 2 ^ 23 % 256 ∧
      f = (0x80000001#32).toNat % 2 ^ 23 ∧ val32 0x80000001#32 = none) ∧
    val32 0x7F800000#32 = some .pinf ∧ val32 0x007FFFFF#32 = some (.num ((2 ^ 23 - 1) / 2 ^ 149)) ∧
    val32 0x00800000#32 = some (.num (1 / 2 ^ 126)) :=
  ⟨⟨1, 0, 1, by decide, by decide, by decide, by decide +kernel⟩, by decide +kernel, by decide +kernel, by decide +kernel⟩

theorem witness_Val32IsStrictlyMonotone :
    (0x007FFFFF#32).toNat < (0x00800000#32).toNat ∧ (0x00800000#32).toNat < 0x7F800000 := by decide

/-- A valid pixel with an out-of-range channel, one at RANGE and a black one. -/
theorem mixed_pixel : pixelInput 0x7F800000#32 0x40C00000#32 0x80000000#32 = some ⟨.pinf, .num 6, .num 0⟩ := by
  decide +kernel

theorem witness_ClampIsReportedExactly :
    (0 : Rat) < 6 ∧ ∃ a b c v, pixelInput a b c = some v := ⟨by decide, _, _, _, _, mixed_pixel⟩

theorem witness_EncoderProperties :
    (0 : Rat) < 6 ∧ (∃ a b c v, pixelInput a b c = some v ∧ 0 < peakOf (normalizePixel 6 (clampPixel 6 v)) ∧
      (normalizePixel 6 (clampPixel 6 v)).r = peakOf (normalizePixel 6 (clampPixel 6 v)) ∧
      (normalizePixel 6 (clampPixel 6 v)).g = peakOf (normalizePixel 6 (clampPixel 6 v))) ∧
    (∃ a b c v, pixelInput a b c = some v ∧ 0 < peakOf (normalizePixel 6 (clampPixel 6 v)) ∧
      (normalizePixel 6 (clampPixel 6 v)).b = peakOf (normalizePixel 6 (clampPixel 6 v))) :=
  ⟨by decide, ⟨_, _, _, _, mixed_pixel, by decide +kernel, by decide +kernel, by decide +kernel⟩,
    0, 0, 1, ⟨.num 0, .num 0, .num (1 / 2 ^ 149)⟩, by decide +kernel, by decide +kernel, by decide +kernel⟩

theorem witness_QuantizerProperties :
    (0 : Rat) < 6 ∧ pixelInput 0 0x80000000#32 0 = some ⟨.num 0, .num 0, .num 0⟩ := ⟨by decide, by decide +kernel⟩

theorem witness_ReconstructorProperties :
    (0 : Rat) < 6 ∧ ∃ a b c v cl, pixelInput a b c = some v ∧ cl = clampPixel 6 v ∧
      reconstructSat 6 (rgbmEncode 6 v) = true :=
  ⟨by decide, _, _, _, _, _, mixed_pixel, rfl, by decide +kernel⟩

theorem witness_ReappliedRadianceIsWithinOneStep :
    (0 : Rat) < 6 ∧ ∃ a b c v cl q m, pixelInput a b c = some v ∧ cl = clampPixel 6 v ∧
      q = quantize (rgbmEncode 6 v) ∧ m = (q.q3.toNat : Rat) / 255 :=
  ⟨by decide, _, _, _, _, _, _, _, mixed_pixel, rfl, rfl, rfl⟩

theorem witness_BoundaryPixelsEncode : (0 : Rat) < 6 ∧ (0 : Rat) < 1 / 1000 := by decide +kernel

theorem witness_PixelsAreIndependent :
    active0.build = { active0 with zero := true, width := 2 }.build ∧
    active0.fmt = { active0 with zero := true, width := 2 }.fmt ∧
    (∃ t r, exec (.pixel 0x40400000#32 0 0) active0 = .next t ∧ t.response = some r ∧ r.resp = .ok) ∧
    (∃ t r, exec (.pixel 0x40400000#32 0 0) { active0 with zero := true, width := 2 } = .next t ∧
      t.response = some r ∧ r.resp = .ok) :=
  ⟨rfl, rfl, answered _ _ _ (by decide +kernel), answered _ _ _ (by decide +kernel)⟩

theorem witness_FormatChangesOnlyBytes :
    (active0.build = { active0 with fmt := .rgba }.build ∧ active0.st = { active0 with fmt := .rgba }.st ∧
      active0.width = { active0 with fmt := .rgba }.width ∧ active0.height = { active0 with fmt := .rgba }.height ∧
      active0.idx = { active0 with fmt := .rgba }.idx ∧ active0.err = { active0 with fmt := .rgba }.err ∧
      active0.zero = { active0 with fmt := .rgba }.zero ∧ active0.oor = { active0 with fmt := .rgba }.oor) ∧
    (∃ t r, exec (.pixel 0x40400000#32 0 0) active0 = .next t ∧ t.response = some r ∧ r.resp = .ok) ∧
    (∃ t r, exec (.pixel 0x40400000#32 0 0) { active0 with fmt := .rgba } = .next t ∧ t.response = some r ∧
      r.resp = .ok) ∧
    (∃ t r, exec (.frame 1 1 .rgbm) done1 = .next t ∧ t.response = some r ∧ r.resp = .ok) ∧
    (∃ t r, exec (.frame 1 1 .rgba) done1 = .next t ∧ t.response = some r ∧ r.resp = .ok) :=
  ⟨by decide, answered _ _ _ (by decide +kernel), answered _ _ _ (by decide +kernel),
    answered _ _ _ (by decide +kernel), answered _ _ _ (by decide +kernel)⟩

/-! ## The whole machine -/

theorem witness_ResetValuesOfEveryRegister :
    ∃ build draw inputs s, s = State.resetOf build draw inputs ∧ s.rb ≠ [] :=
  ⟨Config.defaultBuild, [1], [], _, rfl, by decide⟩

theorem witness_StepKeepsTheInvariant : ∃ s t : State, s.Inv ∧ step s = .next t :=
  ⟨send active1 3, { done1 with response := some ⟨.ok, done1.status, 0⟩ }, inv_send inv_active1 3,
    next_of_answer (by decide +kernel)⟩

theorem witness_InvariantStatesNeverStop : done1.Inv ∧ active1.Inv ∧ error0.Inv ∧ active0.Inv ∧ State.reset.Inv :=
  ⟨inv_done1, inv_active1, inv_error0, inv_active0, inv_reset⟩

theorem witness_ReachableStatesAreSafe : ∃ s t : State, Reachable s ∧ step s = .next t ∧ Reachable t :=
  have h : step (State.resetOf Config.defaultBuild [] [.command 5]) =
      .next { State.reset with response := some ⟨.ok, State.reset.status, 0⟩ } := next_of_answer (by decide +kernel)
  ⟨_, _, .reset _ _ _, h, .step _ _ (.reset _ _ _) h⟩

/-- A 2 by 1 frame from DONE, with its last pixel read, and an empty frame. -/
theorem witness_FrameSequenceReadsBack :
    (∃ (s : State) (w h : Word32) (f : Fmt) (ps : List (Word32 × Word32 × Word32)) (vs : List (Rgb Radiance))
      (p : Word64) (rest : List HostInput), s.st ≠ .active ∧
      w.toNat * h.toNat ≤ s.build.rbPixels ∧ vs.length = w.toNat * h.toNat ∧
      ps.map (fun x => pixelInput x.1 x.2.1 x.2.2) = vs.map some ∧
      s.inputs = sendAll (.frame w h f :: (ps.map (fun x => .pixel x.1 x.2.1 x.2.2) ++ [.finish])) ++ rest ∧
      p.toNat + 1 = vs.length) ∧
    (∃ (s : State) (w h : Word32), s.st ≠ .active ∧ w.toNat * h.toNat ≤ s.build.rbPixels ∧ 0 = w.toNat * h.toNat ∧
      s.inputs = sendAll [.frame w h .rgbm, .finish]) :=
  ⟨⟨{ done1 with inputs := sendAll [.frame 2 1 .rgba, .pixel 0 0 0, .pixel 0x7F800000#32 0x40C00000#32 0x80000000#32,
      .finish] }, 2, 1, .rgba, [(0, 0, 0), (0x7F800000#32, 0x40C00000#32, 0x80000000#32)],
    [⟨.num 0, .num 0, .num 0⟩, ⟨.pinf, .num 6, .num 0⟩], 1, [], by decide, by decide, by decide, by decide +kernel,
    by decide, by decide⟩,
    { State.reset with inputs := sendAll [.frame 0 5 .rgbm, .finish] }, 0, 5, by decide, by decide, by decide, by decide⟩

end Sys2Proof.Tests
end

section
/-! SUPPORT. What a step can do, once: a forward equation for each thing the host can present, the checks of a command as a
function of its own (R190 to R193), the relation of accepted commands, and the inversion of step and exec into them. The
proofs about steps go through these. -/

namespace Sys2Proof.Machine

/-! ## The step, by what the host presents -/

theorem step_of_no_inputs {s : State} (h : s.inputs = []) : step s = .next s := by
  simp [step, fetch, h]

theorem step_of_resets {s : State} {draw : List Byte} {rest : List HostInput} (h : s.Resets draw rest) :
    step s = .next (State.resetOf s.build draw rest) := by
  rcases h with h | ⟨w, h⟩ <;> simp [step, fetch, h, takeReset]

theorem step_of_illegal {s : State} {w : Word128} {rest : List HostInput} {e : DecodeError} (h : s.Sends w rest)
    (he : decode w = .error e) : step s = .next (reject .illegal { s with inputs := rest }) := by
  simp [step, fetch_command s w rest h, fetchWord_error w e he, consume_eq s _ rest h]

theorem step_of_decodes {s : State} {w : Word128} {rest : List HostInput} {i : Instr} (h : s.Sends w rest)
    (hi : decode w = .ok i) : step s = exec i { s with inputs := rest } := by
  simp [step, fetch_command s w rest h, fetchWord_ok w i hi, consume_eq s _ rest h]

/-- Everything the host can present: nothing, a reset, a word that is no command, a command. -/
theorem inputs_cases (s : State) :
    s.inputs = [] ∨ (∃ draw rest, s.Resets draw rest) ∨
    (∃ w rest e, s.Sends w rest ∧ decode w = .error e) ∨ (∃ w rest i, s.Sends w rest ∧ decode w = .ok i) := by
  rcases hs : s.inputs with _ | ⟨_ | _ | _, rest⟩
  case nil => exact .inl rfl
  case cons.command w =>
    cases hw : decode w with
    | error e => exact .inr (.inr (.inl ⟨w, rest, e, hs, hw⟩))
    | ok i => exact .inr (.inr (.inr ⟨w, rest, i, hs, hw⟩))
  case cons.reset draw => exact .inr (.inl ⟨draw, rest, .inl hs⟩)
  case cons.resetDuring w draw => exact .inr (.inl ⟨draw, rest, .inr ⟨w, hs⟩⟩)

/-- Everything a step that answers a next state can have done. -/
theorem step_cases {s t : State} (ht : step s = .next t) :
    (s.inputs = [] ∧ t = s) ∨
    (∃ draw rest, s.Resets draw rest ∧ t = State.resetOf s.build draw rest) ∨
    (∃ w rest e, s.Sends w rest ∧ decode w = .error e ∧ t = reject .illegal { s with inputs := rest }) ∨
    (∃ w rest i, s.Sends w rest ∧ decode w = .ok i ∧ exec i { s with inputs := rest } = .next t) := by
  rcases inputs_cases s with h | ⟨draw, rest, h⟩ | ⟨w, rest, e, h, he⟩ | ⟨w, rest, i, h, hi⟩
  · rw [step_of_no_inputs h] at ht
    exact .inl ⟨h, by cases ht; rfl⟩
  · rw [step_of_resets h] at ht
    exact .inr (.inl ⟨draw, rest, h, by cases ht; rfl⟩)
  · rw [step_of_illegal h he] at ht
    exact .inr (.inr (.inl ⟨w, rest, e, h, he, by cases ht; rfl⟩))
  · exact .inr (.inr (.inr ⟨w, rest, i, h, hi, by rw [← step_of_decodes h hi, ht]⟩))

/-! ## The checks of a command -/

/-- What the checks of a command decide: a rejection (R190), a frame fault (R192), or that the command is carried out. -/
inductive Verdict where
  | reject (code : RespCode)
  | fault (code : Err)
  | accept

/-- The checks of each command, in the order of R193; `exec_cases` ties them to exec. -/
def checks (i : Instr) (s : State) : Verdict :=
  match i with
  | .frame w h _ =>
    if s.st = .active then .reject .wrongState
    else if s.build.rbPixels < w.toNat * h.toNat then .reject .badArg
    else .accept
  | .pixel a b c =>
    if s.st ≠ .active then .reject .wrongState
    else if s.idx.toNat = s.area then .fault .overrun
    else if pixelInput a b c = none then .fault .input
    else .accept
  | .finish =>
    if s.st ≠ .active then .reject .wrongState
    else if s.idx.toNat ≠ s.area then .fault .length
    else .accept
  | .rdbuf p =>
    if s.st ≠ .done then .reject .wrongState
    else if s.area ≤ p.toNat then .reject .badArg
    else .accept
  | .clear | .rdstat | .rdcfg | .rdcnt => .accept

/-- No check reads FMT, a flag, ERR, RB or a port. -/
theorem checks_congr (i : Instr) {s t : State} (hbuild : s.build = t.build) (hst : s.st = t.st)
    (hidx : s.idx = t.idx) (harea : s.area = t.area) : checks i s = checks i t := by
  cases i <;> simp only [checks, hbuild, hst, hidx, harea]

/-- The format operand of FRAME is not checked. -/
theorem checks_frame_fmt (w h : Word32) (f f' : Fmt) (s : State) :
    checks (.frame w h f) s = checks (.frame w h f') s := rfl

theorem checks_frame_accept {w h : Word32} {f : Fmt} {s : State} (hst : s.st ≠ .active)
    (hfit : w.toNat * h.toNat ≤ s.build.rbPixels) : checks (.frame w h f) s = .accept := by
  simp [checks, hst, not_lt.mpr hfit]

theorem checks_reject_ne_ok {i : Instr} {s : State} {code : RespCode} (h : checks i s = .reject code) :
    code ≠ .ok := by
  rintro rfl
  cases i <;> grind [checks]

theorem checks_fault_active {i : Instr} {s : State} {code : Err} (h : checks i s = .fault code) :
    s.st = .active ∧ code ≠ .none := by
  cases i <;> grind [checks]

/-! ## The accepted commands -/

/-- The state CLEAR leaves (R143), its response aside. -/
abbrev clearedState (s : State) : State :=
  { s with st := .idle, width := 0, height := 0, fmt := .rgbm, idx := 0, zero := false, oor := false, sat := false,
           err := .none }

/-- What each command does once its checks have passed, the checks it relies on among the premises. -/
inductive Accepted : Instr → State → State → Prop where
  | frame {w h f s} : s.st ≠ .active → w.toNat * h.toNat ≤ s.build.rbPixels →
    Accepted (.frame w h f) s (respond .ok 0 (openedFrame w h f s))
  | pixel {a b c v s} : s.st = .active → s.idx.toNat ≠ s.area → pixelInput a b c = some v →
    4 * s.idx.toNat + 4 ≤ 4 * s.build.rbPixels →
    Accepted (.pixel a b c) s
      (respond .ok ((pixelBytes s.build.range s.fmt v).word.setWidth 64) (packedState v s))
  | finish {s} : s.st = .active → s.idx.toNat = s.area → Accepted .finish s (respond .ok 0 { s with st := .done })
  | clear {s} : Accepted .clear s (respond .ok 0 (clearedState s))
  | rdstat {s} : Accepted .rdstat s (respond .ok 0 s)
  | rdcfg {s} : Accepted .rdcfg s (respond .ok (s.height ++ s.width) s)
  | rdcnt {s} : Accepted .rdcnt s (respond .ok s.idx s)
  | rdbuf {p s} : s.st = .done → p.toNat < s.area →
    Accepted (.rdbuf p) s (respond .ok ((s.rb.read4 (4 * p.toNat)).setWidth 64) s)

/-- What exec can have done when it answers a next state: what its checks decided. -/
theorem exec_cases {i : Instr} {s t : State} (ht : exec i s = .next t) :
    (∃ code, checks i s = .reject code ∧ t = reject code s) ∨
    (∃ code, checks i s = .fault code ∧ t = frameFault code s) ∨
    (checks i s = .accept ∧ Accepted i s t) := by
  cases i with
  | frame w h f =>
    rcases execFrame_cases w h f s t ht with ⟨ha, rfl⟩ | ⟨ha, hb, rfl⟩ | ⟨ha, hb, rfl⟩
    · exact .inl ⟨.wrongState, by simp [checks, ha], rfl⟩
    · exact .inl ⟨.badArg, by simp [checks, ha, hb], rfl⟩
    · exact .inr (.inr ⟨checks_frame_accept ha hb, .frame ha hb⟩)
  | pixel a b c =>
    rcases execPixel_cases a b c s t ht with ⟨ha, rfl⟩ | ⟨ha, hb, rfl⟩ | ⟨ha, hb, hc, rfl⟩ | ⟨v, ha, hb, hv, hin, rfl⟩
    · exact .inl ⟨.wrongState, by simp [checks, ha], rfl⟩
    · exact .inr (.inl ⟨.overrun, by simp [checks, ha, hb], rfl⟩)
    · exact .inr (.inl ⟨.input, by simp [checks, ha, hb, hc], rfl⟩)
    · exact .inr (.inr ⟨by simp [checks, ha, hb, hv], .pixel ha hb hv hin⟩)
  | finish =>
    rcases execFinish_cases s t ht with ⟨ha, rfl⟩ | ⟨ha, hb, rfl⟩ | ⟨ha, hb, rfl⟩
    · exact .inl ⟨.wrongState, by simp [checks, ha], rfl⟩
    · exact .inr (.inl ⟨.length, by simp [checks, ha, hb], rfl⟩)
    · exact .inr (.inr ⟨by simp [checks, ha, hb], .finish ha hb⟩)
  | clear => cases ht; exact .inr (.inr ⟨rfl, .clear⟩)
  | rdstat => cases ht; exact .inr (.inr ⟨rfl, .rdstat⟩)
  | rdcfg => cases ht; exact .inr (.inr ⟨rfl, .rdcfg⟩)
  | rdcnt => cases ht; exact .inr (.inr ⟨rfl, .rdcnt⟩)
  | rdbuf p =>
    rcases execRdbuf_cases p s t ht with ⟨ha, rfl⟩ | ⟨ha, hb, rfl⟩ | ⟨ha, hb, -, rfl⟩
    · exact .inl ⟨.wrongState, by simp [checks, ha], rfl⟩
    · exact .inl ⟨.badArg, by simp [checks, ha, hb], rfl⟩
    · exact .inr (.inr ⟨by simp [checks, ha, hb], .rdbuf ha hb⟩)

/-- An accepted command answers OK. -/
theorem Accepted.resp_ok {i : Instr} {s t : State} (h : Accepted i s t) {r : Response} (hr : t.response = some r) :
    r.resp = .ok := by
  cases h <;> (cases hr; rfl)

/-- Only an accepted command answers OK. -/
theorem accepted_of_resp_ok {i : Instr} {s t : State} {r : Response} (ht : exec i s = .next t)
    (hr : t.response = some r) (hok : r.resp = .ok) : Accepted i s t := by
  rcases exec_cases ht with ⟨code, hc, rfl⟩ | ⟨code, -, rfl⟩ | ⟨-, h⟩
  · cases hr; exact absurd hok (checks_reject_ne_ok hc)
  · cases hr; cases hok
  · exact h

/-- A command that is not accepted leaves the build, the configuration, IDX, the flags and RB as they are. -/
theorem exec_unaccepted_keeps {i : Instr} {s t : State} (ht : exec i s = .next t) (h : ¬ Accepted i s t) :
    t.build = s.build ∧ t.width = s.width ∧ t.height = s.height ∧ t.fmt = s.fmt ∧ t.idx = s.idx ∧
    t.zero = s.zero ∧ t.oor = s.oor ∧ t.sat = s.sat ∧ t.rb = s.rb := by
  rcases exec_cases ht with ⟨code, -, rfl⟩ | ⟨code, -, rfl⟩ | ⟨-, h'⟩
  · simp
  · simp
  · exact absurd h' h

end Sys2Proof.Machine
end

section
/-! The invariant of the core holds after reset and every step keeps it, and no state of the invariant stops (R26, R28, R30,
R55, R56). -/

namespace Sys2Proof.Machine

/-- What a response just given carries: the STATUS as it then stands, and DATA only with OK (R29, R74). -/
theorem respond_fresh {code : RespCode} {data : Word64} (s : State) (h : code ≠ .ok → data = 0) (r : Response)
    (hr : (respond code data s).response = some r) :
    r.status = (respond code data s).status ∧ (r.resp ≠ .ok → r.data = 0) := by
  cases hr
  exact ⟨rfl, h⟩

/-- A pixel index inside the frame can be counted up without wrapping. -/
theorem idx_succ_toNat {s : State} (h : s.Inv) (hlt : s.idx.toNat < s.area) :
    (s.idx + 1).toNat = s.idx.toNat + 1 := by
  have hcap : s.area < 2 ^ 64 := lt_of_le_of_lt h.fits s.build.rbPixels_lt
  rw [BitVec.toNat_add, show BitVec.toNat (1 : Word64) = 1 from rfl]
  omega

/-- While the frame is open and not full, the next pixel lies inside it. -/
theorem idx_lt_area {s : State} (h : s.Inv) (hst : s.st = .active) (hne : s.idx.toNat ≠ s.area) :
    s.idx.toNat < s.area :=
  lt_of_le_of_ne (h.idx_le (by simp [hst])) hne

theorem resetOf_inv (build : Config.Build) (draw : List Byte) (inputs : List HostInput) :
    (State.resetOf build draw inputs).Inv where
  idx_le h := absurd rfl h
  done_full h := by cases h
  fits := by simp
  err_iff := by simp
  idle_clear _ := by simp
  rb_wf := Memory.ofBytes_wf _ _
  rb_inside := resetOf_inside build draw inputs
  response_fresh r hr := by cases hr

/-- What the host does next is no part of the invariant. -/
theorem State.Inv.with_inputs {s : State} (h : s.Inv) (inputs : List HostInput) :
    State.Inv { s with inputs := inputs } :=
  ⟨h.idx_le, h.done_full, h.fits, h.err_iff, h.idle_clear, h.rb_wf, h.rb_inside, h.response_fresh⟩

/-- A response that changes nothing keeps the invariant. -/
theorem respond_inv {s : State} (h : s.Inv) {code : RespCode} {data : Word64} (hd : code ≠ .ok → data = 0) :
    (respond code data s).Inv :=
  ⟨h.idx_le, h.done_full, h.fits, h.err_iff, h.idle_clear, h.rb_wf, h.rb_inside, respond_fresh s hd⟩

theorem reject_inv {s : State} (h : s.Inv) (code : RespCode) : (reject code s).Inv :=
  respond_inv h fun _ => rfl

theorem frameFault_inv {s : State} (h : s.Inv) {code : Err} (hst : s.st = .active) (hc : code ≠ .none) :
    (frameFault code s).Inv where
  idx_le _ := h.idx_le (by simp [hst])
  done_full hd := by cases hd
  fits := h.fits
  err_iff := by simpa using hc
  idle_clear hi := by cases hi
  rb_wf := h.rb_wf
  rb_inside := h.rb_inside
  response_fresh := respond_fresh _ fun _ => rfl

theorem openedFrame_inv {s : State} (h : s.Inv) {w ht : Word32} (f : Fmt)
    (hfit : w.toNat * ht.toNat ≤ s.build.rbPixels) : (respond .ok 0 (openedFrame w ht f s)).Inv where
  idx_le _ := Nat.zero_le _
  done_full hd := by cases hd
  fits := hfit
  err_iff := by simp
  idle_clear hi := by cases hi
  rb_wf := h.rb_wf
  rb_inside := h.rb_inside
  response_fresh := respond_fresh _ fun _ => rfl

/-- An accepted PIXEL: IDX stays within the frame, and the four bytes within RB. -/
theorem packedState_inv {s : State} (h : s.Inv) (v : Rgb Radiance) (data : Word64) (hst : s.st = .active)
    (hne : s.idx.toNat ≠ s.area) (hin : 4 * s.idx.toNat + 4 ≤ 4 * s.build.rbPixels) :
    (respond .ok data (packedState v s)).Inv where
  idx_le _ := by
    have hlt := idx_lt_area h hst hne
    change (s.idx + 1).toNat ≤ s.area
    rw [idx_succ_toNat h hlt]
    exact hlt
  done_full hd := by simp [hst] at hd
  fits := h.fits
  err_iff := h.err_iff
  idle_clear hi := by simp [hst] at hi
  rb_wf := Memory.write4_wf _ _ _ h.rb_wf
  rb_inside c hc := by
    rcases Memory.mem_write4 _ _ _ c hc with ⟨-, hlt⟩ | hc
    · exact lt_of_lt_of_le hlt hin
    · exact h.rb_inside c hc
  response_fresh := respond_fresh _ fun hne => absurd rfl hne

/-- An accepted FINISH: the frame is full. -/
theorem finished_inv {s : State} (h : s.Inv) (hst : s.st = .active) (hfull : s.idx.toNat = s.area) :
    State.Inv (respond .ok 0 { s with st := .done }) where
  idx_le _ := le_of_eq hfull
  done_full _ := hfull
  fits := h.fits
  err_iff := by simpa [hst] using h.err_iff
  idle_clear hi := by cases hi
  rb_wf := h.rb_wf
  rb_inside := h.rb_inside
  response_fresh := respond_fresh _ fun _ => rfl

theorem clearedState_inv {s : State} (h : s.Inv) : (respond .ok 0 (clearedState s)).Inv where
  idx_le hne := absurd rfl hne
  done_full hd := by cases hd
  fits := by simp [State.area]
  err_iff := by simp
  idle_clear _ := by simp
  rb_wf := h.rb_wf
  rb_inside := h.rb_inside
  response_fresh := respond_fresh _ fun _ => rfl

theorem Accepted.inv {i : Instr} {s t : State} (hacc : Accepted i s t) (h : s.Inv) : t.Inv := by
  cases hacc with
  | frame _ hfit => exact openedFrame_inv h _ hfit
  | pixel hst hne _ hin => exact packedState_inv h _ _ hst hne hin
  | finish hst hfull => exact finished_inv h hst hfull
  | clear => exact clearedState_inv h
  | rdstat | rdcfg | rdcnt | rdbuf => exact respond_inv h fun hne => absurd rfl hne

theorem exec_inv {i : Instr} {s t : State} (h : s.Inv) (ht : exec i s = .next t) : t.Inv := by
  rcases exec_cases ht with ⟨code, -, rfl⟩ | ⟨code, hc, rfl⟩ | ⟨-, hacc⟩
  · exact reject_inv h code
  · obtain ⟨hst, hne⟩ := checks_fault_active hc
    exact frameFault_inv h hst hne
  · exact hacc.inv h

/-- Every step keeps the invariant. -/
theorem step_inv {s t : State} (h : s.Inv) (ht : step s = .next t) : t.Inv := by
  rcases step_cases ht with ⟨-, rfl⟩ | ⟨draw, rest, -, rfl⟩ | ⟨w, rest, e, -, -, rfl⟩ | ⟨w, rest, i, -, -, hi⟩
  · exact h
  · exact resetOf_inv _ _ _
  · exact reject_inv (h.with_inputs rest) .illegal
  · exact exec_inv (h.with_inputs rest) hi

/-! ## No state of the invariant stops -/

/-- From a state of the invariant every command answers a next state: the two commands that access RB do so inside it. -/
theorem exec_total {s : State} (h : s.Inv) (i : Instr) : ∃ t, exec i s = .next t := by
  cases i with
  | frame w ht f =>
    simp only [exec, execFrame]
    split_ifs <;> exact ⟨_, rfl⟩
  | pixel a b c =>
    simp only [exec, execPixel]
    split_ifs with hst hfull
    · exact ⟨_, rfl⟩
    · exact ⟨_, rfl⟩
    · cases pixelInput a b c with
      | none => exact ⟨_, rfl⟩
      | some v =>
        have hlt := idx_lt_area h (not_not.mp hst) hfull
        have hfits := h.fits
        exact ⟨_, packPixel_inside v s (by omega)⟩
  | finish =>
    simp only [exec, execFinish]
    split_ifs <;> exact ⟨_, rfl⟩
  | clear | rdstat | rdcfg | rdcnt => exact ⟨_, rfl⟩
  | rdbuf p =>
    simp only [exec, execRdbuf]
    split_ifs with hst hp
    · exact ⟨_, rfl⟩
    · exact ⟨_, rfl⟩
    · have hfits := h.fits
      rw [memRead4_inside s (4 * p.toNat) (by omega)]
      exact ⟨_, rfl⟩

theorem step_total {s : State} (h : s.Inv) : s.Safe := by
  rcases inputs_cases s with hs | ⟨draw, rest, hs⟩ | ⟨w, rest, e, hs, he⟩ | ⟨w, rest, i, hs, hi⟩
  · exact ⟨_, step_of_no_inputs hs⟩
  · exact ⟨_, step_of_resets hs⟩
  · exact ⟨_, step_of_illegal hs he⟩
  · obtain ⟨t, ht⟩ := exec_total (h.with_inputs rest) i
    exact ⟨t, by rw [step_of_decodes hs hi, ht]⟩

/-! ## Runs -/

theorem run_succ {s t : State} (ht : step s = .next t) (k : Nat) : run (k + 1) s = run k t := by
  simp [run, ht]

/-- From a state of the invariant any number of steps goes on, within the invariant. -/
theorem run_total {s : State} (h : s.Inv) (k : Nat) : ∃ t, run k s = .next t ∧ t.Inv := by
  induction k generalizing s with
  | zero => exact ⟨s, rfl, h⟩
  | succ k ih =>
    obtain ⟨u, hu⟩ := step_total h
    rw [run_succ hu]
    exact ih (step_inv h hu)

theorem Reachable.inv {s : State} (h : Reachable s) : s.Inv := by
  induction h with
  | reset build draw inputs => exact resetOf_inv build draw inputs
  | step s t _ ht ih => exact step_inv ih ht

end Sys2Proof.Machine

open Sys2Proof Sys2Proof.Machine

/-- Settles O51: an accepted command keeps the invariant case by case (`Accepted.inv`), a rejection, a fault and reset
each by one lemma. -/
theorem stepKeepsTheInvariant : Obligations.StepKeepsTheInvariant :=
  fun _ _ h ht => step_inv h ht

/-- Settles O50. -/
theorem resetMeetsTheInvariant : Obligations.ResetMeetsTheInvariant := resetOf_inv

/-- Settles O53, by induction on the run from reset and then on the number of further steps. -/
theorem reachableStatesAreSafe : Obligations.ReachableStatesAreSafe :=
  fun _ h => ⟨h.inv, step_total h.inv, run_total h.inv⟩

end

section
/-! What a step leaves unchanged: the build, the configuration, the bytes of RB (R24, R25, R30, R31), and what it does on a
word that decodes; the STATUS word and the registers after reset (R29, R34). -/

namespace Sys2Proof.Machine

theorem exec_build {i : Instr} {s t : State} (ht : exec i s = .next t) : t.build = s.build := by
  by_cases hacc : Accepted i s t
  · cases hacc <;> rfl
  · exact (exec_unaccepted_keeps ht hacc).1

/-- WIDTH, HEIGHT and FMT stay, or CLEAR zeroes them, or an accepted FRAME latches its operands. -/
theorem exec_config_cases {i : Instr} {s t : State} (ht : exec i s = .next t) :
    (t.width, t.height, t.fmt) = (s.width, s.height, s.fmt) ∨
    (i = .clear ∧ t.width = 0 ∧ t.height = 0 ∧ t.fmt = .rgbm) ∨
    (i = .frame t.width t.height t.fmt ∧ s.st ≠ .active ∧ t.st = .active) := by
  by_cases hacc : Accepted i s t
  · cases hacc with
    | frame hst => exact .inr (.inr ⟨rfl, hst, rfl⟩)
    | clear => exact .inr (.inl ⟨rfl, rfl, rfl, rfl⟩)
    | pixel | finish | rdstat | rdcfg | rdcnt | rdbuf => exact .inl rfl
  · obtain ⟨-, hw, hh, hf, -⟩ := exec_unaccepted_keeps ht hacc
    exact .inl (by rw [hw, hh, hf])

/-- RB stays, or a PIXEL is accepted and its four bytes are written. -/
theorem exec_rb_cases {i : Instr} {s t : State} (ht : exec i s = .next t) :
    t.rb = s.rb ∨ ∃ a b c word, i = .pixel a b c ∧ Accepted i s t ∧ t.rb = s.rb.write4 (4 * s.idx.toNat) word := by
  by_cases hacc : Accepted i s t
  · cases hacc with
    | pixel hst hne hv hin => exact .inr ⟨_, _, _, _, rfl, .pixel hst hne hv hin, rfl⟩
    | frame | finish | clear | rdstat | rdcfg | rdcnt | rdbuf => exact .inl rfl
  · obtain ⟨-, -, -, -, -, -, -, -, hrb⟩ := exec_unaccepted_keeps ht hacc
    exact .inl hrb

/-! ## The STATUS word -/

/-- Joining two words puts the first above the second. -/
theorem append_toNat {m n : Nat} (x : BitVec m) (y : BitVec n) : (x ++ y).toNat = 2 ^ n * x.toNat + y.toNat := by
  rw [BitVec.toNat_append, Nat.shiftLeft_eq, Nat.mul_comm, Nat.two_pow_add_eq_or_of_lt y.isLt]

theorem FrameState.code_toNat (st : FrameState) :
    st.code.toNat = match st with | .idle => 0 | .active => 1 | .done => 2 | .error => 3 := by
  cases st <;> rfl

theorem fmtBit_toNat (f : Fmt) : f.bit.toNat = match f with | .rgbm => 0 | .rgba => 1 := by
  cases f <;> rfl

theorem Err.code_toNat (e : Err) :
    e.code.toNat = match e with | .none => 0 | .input => 1 | .overrun => 2 | .length => 3 := by
  cases e <;> rfl

/-- The STATUS word as a number, field by field at the fields' places (R29). -/
theorem Status.word_toNat (t : Status) :
    t.word.toNat = t.st.code.toNat + 4 * t.fmt.bit.toNat + 8 * t.zero.toNat + 16 * t.oor.toNat + 32 * t.sat.toNat +
      256 * t.err.code.toNat := by
  unfold Status.word
  rw [BitVec.toNat_setWidth_of_le (by decide)]
  simp only [append_toNat, BitVec.toNat_ofBool, BitVec.toNat_ofNat]
  omega

end Sys2Proof.Machine

open Sys2Proof Sys2Proof.Machine

/-- Settles O33. -/
theorem buildParametersNeverChange : Obligations.BuildParametersNeverChange := by
  intro s t ht
  rcases step_cases ht with ⟨-, rfl⟩ | ⟨draw, rest, -, rfl⟩ | ⟨w, rest, e, -, -, rfl⟩ | ⟨w, rest, i, -, -, hi⟩
  · rfl
  · rfl
  · rfl
  · exact (exec_build hi :)

/-- Settles O32: of the steps only reset and exec's CLEAR and accepted FRAME touch the configuration. -/
theorem configurationIsLatchedByFrame : Obligations.ConfigurationIsLatchedByFrame := by
  intro s t ht hne
  rcases step_cases ht with ⟨-, rfl⟩ | ⟨draw, rest, hs, rfl⟩ | ⟨w, rest, e, -, -, rfl⟩ | ⟨w, rest, i, hs, hd, hi⟩
  · exact absurd rfl hne
  · exact .inl ⟨rfl, rfl, rfl, .inl ⟨draw, rest, hs⟩⟩
  · exact absurd rfl hne
  · rcases exec_config_cases hi with hsame | ⟨rfl, hw, hh, hf⟩ | ⟨hframe, hst, hact⟩
    · exact absurd hsame hne
    · exact .inl ⟨hw, hh, hf, .inr ⟨w, rest, hs, hd⟩⟩
    · exact .inr ⟨w, rest, hs, hframe ▸ hd, hst, hact⟩

/-- Settles O35: RB stays but for the four-byte write of an accepted PIXEL. -/
theorem onlyAcceptedPixelsWriteTheRaster : Obligations.OnlyAcceptedPixelsWriteTheRaster := by
  intro i s t ht
  rcases exec_rb_cases ht with hrb | ⟨a, b, c, word, rfl, hacc, hrb⟩
  · exact ⟨fun _ => hrb, fun _ => hrb, fun x _ => by rw [hrb]⟩
  · refine ⟨fun hne => absurd rfl (hne a b c), fun ⟨r, hr, hne⟩ => absurd (hacc.resp_ok hr) hne, fun x hx => ?_⟩
    rw [hrb, Memory.read_write4, if_neg (by omega)]

/-- Settles O9. -/
theorem stepRunsDecodedCommand : Obligations.StepRunsDecodedCommand :=
  fun _ _ _ _ hs hi => step_of_decodes hs hi

/-- Settles O14. -/
theorem statusWordLayout : Obligations.StatusWordLayout := by
  intro t
  have h := Status.word_toNat t
  rw [FrameState.code_toNat, fmtBit_toNat, Err.code_toNat] at h
  exact h

/-- Settles O49. -/
theorem resetValuesOfEveryRegister : Obligations.ResetValuesOfEveryRegister := by
  refine ⟨rfl, ?_⟩
  rintro build draw inputs s rfl
  exact ⟨rfl, rfl, rfl, rfl, rfl, rfl, rfl, rfl, rfl, fun _ => rfl⟩

end

section
/-! The sticky flags of an accepted PIXEL without the datapath (R27): ZERO from the clamped channels, and SAT, which the
quantizer never sets (R110 item 1) and the reconstructor sets exactly from 256/255 on (R112 item 2). -/

namespace Sys2Proof.Machine

/-! ## The clamped channels -/

theorem clampRange_nonneg {range : Rat} (hr : 0 < range) {b : Word32} {x : Radiance} (hx : val32 b = some x) :
    0 ≤ clampRange range x := by
  cases x with
  | pinf => exact hr.le
  | num v =>
    have hv : 0 ≤ v := by
      unfold val32 at hx
      split_ifs at hx
      · cases hx
      · cases hx
        exact binary32Magnitude_nonneg b
    simp only [clampRange]
    split_ifs
    · exact hr.le
    · exact hv

/-- Only a channel of 0 is clamped to 0. -/
theorem clampRange_eq_zero {range : Rat} (hr : 0 < range) (x : Radiance) : clampRange range x = 0 ↔ x = .num 0 := by
  cases x with
  | pinf => simp [clampRange, hr.ne']
  | num v =>
    simp only [clampRange, Radiance.num.injEq]
    split_ifs with h
    · exact iff_of_false hr.ne' (hr.trans h).ne'
    · rfl

theorem aboveRange_iff (range : Rat) (x : Radiance) :
    aboveRange range x = true ↔ x = .pinf ∨ ∃ q : Rat, x = .num q ∧ range < q := by
  cases x <;> simp [aboveRange]

theorem outOfRange_iff (range : Rat) (v : Rgb Radiance) :
    outOfRange range v = true ↔
      ∃ x ∈ [v.r, v.g, v.b], x = .pinf ∨ ∃ q : Rat, x = .num q ∧ range < q := by
  simp [outOfRange, aboveRange_iff, or_assoc]

/-! ## The multiplier covers the peak -/

/-- `peak <= m`: the multiplier is rounded up (R103, R104). -/
theorem peak_le_multiplierOf (peak : Rat) : peak ≤ multiplierOf (multCode peak) := by
  have hceil : peak * 255 ≤ rawCode peak := Int.le_ceil _
  have hcode : (rawCode peak : Rat) ≤ multCode peak := by
    unfold multCode zeroPixel
    split
    · next h => simp [of_decide_eq_true h]
    · exact le_refl _
  rw [multiplierOf, le_div_iff₀ (by norm_num)]
  exact hceil.trans hcode

/-- `m <= 1` (R107 item 2). -/
theorem multiplierOf_le_one {peak : Rat} (h : peak ≤ 1) : multiplierOf (multCode peak) ≤ 1 := by
  have hraw : rawCode peak ≤ 255 := Int.ceil_le.mpr (by push_cast; linarith)
  have hcode : multCode peak ≤ 255 := by
    unfold multCode
    split
    · norm_num
    · exact hraw
  rw [multiplierOf, div_le_one (by norm_num)]
  exact_mod_cast hcode

/-- A scaled channel is at most 1 (R107 item 1). -/
theorem scaled_le_one {peak x : Rat} (h0 : 0 ≤ peak) (hx : x ≤ peak) : x / multiplierOf (multCode peak) ≤ 1 :=
  (div_le_one (multiplierOf_pos peak h0)).mpr (hx.trans (peak_le_multiplierOf peak))

theorem satd_quantizeInt_of_le_one {x : Rat} (h : x ≤ 1) : satd (quantizeInt x) = false := by
  have hle : quantizeInt x ≤ 255 := Int.ceil_le.mpr (by push_cast; linarith)
  simp [satd, hle]

/-- The reconstructor's integer, from the clamped channel alone (R112 item 1). -/
theorem reconstructInt_scaled {range m : Rat} (hr : 0 < range) (hm : 0 < m) (c : Rat) :
    reconstructInt range m (c / range / m) = ⌊255 * c⌋ := by
  rw [reconstructInt]
  congr 1
  field_simp

theorem satd_floor_iff (c : Rat) : satd ⌊255 * c⌋ = true ↔ 256 / 255 ≤ c := by
  have h : 255 < ⌊255 * c⌋ ↔ (256 : Rat) ≤ 255 * c := by
    rw [← Int.add_one_le_iff, Int.le_floor]
    norm_num
  rw [satd, decide_eq_true_eq, gt_iff_lt, h, div_le_iff₀ (by norm_num), mul_comm]

/-! ## The flags of a valid pixel -/

section ValidPixel

variable {range : Rat} {a b c : Word32} {v : Rgb Radiance} (hr : 0 < range) (hv : pixelInput a b c = some v)
include hr hv

/-- The normalized channels of a valid pixel are not negative, and its peak lies in [0, 1] (R101, R102). -/
theorem normalized_bounds :
    0 ≤ (normalizePixel range (clampPixel range v)).r ∧ 0 ≤ (normalizePixel range (clampPixel range v)).g ∧
    0 ≤ (normalizePixel range (clampPixel range v)).b ∧ 0 ≤ peakOf (normalizePixel range (clampPixel range v)) ∧
    peakOf (normalizePixel range (clampPixel range v)) ≤ 1 := by
  obtain ⟨ha, hb, hc⟩ := (pixelInput_eq_some a b c v).mp hv
  have hnonneg {w : Word32} {x : Radiance} (hx : val32 w = some x) : 0 ≤ clampRange range x / range :=
    div_nonneg (clampRange_nonneg hr hx) hr.le
  have hle (x : Radiance) : clampRange range x / range ≤ 1 := (div_le_one hr).mpr (clampRange_le range x)
  exact ⟨hnonneg ha, hnonneg hb, hnonneg hc, le_max_of_le_left (hnonneg ha), max_le (hle _) (max_le (hle _) (hle _))⟩

/-- ZERO's source: the peak's code is 0 exactly for a pixel of three zeros (R103). -/
theorem pixelZero_iff : pixelZero range v = true ↔ v.r = .num 0 ∧ v.g = .num 0 ∧ v.b = .num 0 := by
  obtain ⟨h0r, h0g, h0b, h0, -⟩ := normalized_bounds hr hv
  have hpeak : pixelZero range v = true ↔ peakOf (normalizePixel range (clampPixel range v)) ≤ 0 := by
    simp only [pixelZero, zeroPixel, decide_eq_true_eq, rawCode, Int.ceil_eq_zero_iff, Set.mem_Ioc]
    constructor
    · rintro ⟨-, h⟩; linarith
    · intro h; constructor <;> linarith
  have hchannel (x : Radiance) (h : 0 ≤ clampRange range x / range) : clampRange range x / range ≤ 0 ↔ x = .num 0 := by
    rw [← clampRange_eq_zero hr, h.ge_iff_eq', div_eq_zero_iff, or_iff_left hr.ne']
  rw [hpeak, peakOf, max_le_iff, max_le_iff]
  exact and_congr (hchannel _ h0r) (and_congr (hchannel _ h0g) (hchannel _ h0b))

/-- The quantizer never saturates (R110 item 1). -/
theorem quantizeSat_rgbmEncode : quantizeSat (rgbmEncode range v) = false := by
  obtain ⟨-, -, -, h0, h1⟩ := normalized_bounds hr hv
  obtain ⟨hr', hg', hb'⟩ := le_peakOf (normalizePixel range (clampPixel range v))
  simp only [quantizeSat, rgbmEncode, quadOf, satd_quantizeInt_of_le_one (scaled_le_one h0 hr'),
    satd_quantizeInt_of_le_one (scaled_le_one h0 hg'), satd_quantizeInt_of_le_one (scaled_le_one h0 hb'),
    satd_quantizeInt_of_le_one (multiplierOf_le_one h1), Bool.or_false]

/-- The reconstructor saturates exactly on a clamped channel of at least 256/255 (R112 item 2). -/
theorem reconstructSat_rgbmEncode :
    reconstructSat range (rgbmEncode range v) = true ↔
      ∃ x ∈ [v.r, v.g, v.b], 256 / 255 ≤ clampRange range x := by
  obtain ⟨-, -, -, h0, -⟩ := normalized_bounds hr hv
  have hm := multiplierOf_pos _ h0
  have hsat : reconstructSat range (rgbmEncode range v) =
      (satd ⌊255 * clampRange range v.r⌋ || satd ⌊255 * clampRange range v.g⌋ ||
        satd ⌊255 * clampRange range v.b⌋) := by
    rw [← reconstructInt_scaled hr hm, ← reconstructInt_scaled hr hm, ← reconstructInt_scaled hr hm]
    rfl
  simp [hsat, satd_floor_iff, or_assoc]

/-- SAT's source, in either format (R114). -/
theorem pixelSat_iff (fmt : Fmt) :
    pixelSat range fmt v = true ↔
      fmt = .rgba ∧ ∃ x ∈ [v.r, v.g, v.b], 256 / 255 ≤ clampRange range x := by
  cases fmt with
  | rgbm => simp [pixelSat, quantizeSat_rgbmEncode hr hv]
  | rgba => simp only [pixelSat, reconstructSat_rgbmEncode hr hv, true_and]

end ValidPixel

/-! ## The flags and the commands -/

/-- A PIXEL answered OK packed a valid pixel. -/
theorem exec_pixel_ok {a b c : Word32} {s t : State} {r : Response} (ht : exec (.pixel a b c) s = .next t)
    (hr : t.response = some r) (hok : r.resp = .ok) :
    ∃ v, pixelInput a b c = some v ∧
      t = respond .ok ((pixelBytes s.build.range s.fmt v).word.setWidth 64) (packedState v s) := by
  cases accepted_of_resp_ok ht hr hok with
  | pixel _ _ hv _ => exact ⟨_, hv, rfl⟩

/-- The flags change by an accepted PIXEL, an accepted FRAME and CLEAR alone (R27). -/
theorem exec_flags_kept {i : Instr} {s t : State} {r : Response} (ht : exec i s = .next t) (hr : t.response = some r)
    (hpixel : ∀ a b c, i = .pixel a b c → r.resp ≠ .ok) (hframe : ∀ w h f, i = .frame w h f → r.resp ≠ .ok)
    (hclear : i ≠ .clear) : t.zero = s.zero ∧ t.oor = s.oor ∧ t.sat = s.sat := by
  by_cases hacc : Accepted i s t
  · have hok := hacc.resp_ok hr
    cases hacc with
    | frame => exact absurd hok (hframe _ _ _ rfl)
    | pixel => exact absurd hok (hpixel _ _ _ rfl)
    | clear => exact absurd rfl hclear
    | finish | rdstat | rdcfg | rdcnt | rdbuf => exact ⟨rfl, rfl, rfl⟩
  · obtain ⟨-, -, -, -, -, hz, ho, hs, -⟩ := exec_unaccepted_keeps ht hacc
    exact ⟨hz, ho, hs⟩

end Sys2Proof.Machine

open Sys2Proof Sys2Proof.Machine

/-- Settles O31: the flags an accepted PIXEL ORs in are `pixelZero_iff`, `outOfRange_iff` and `pixelSat_iff`; every other
command keeps or clears them. -/
theorem stickyFlagsFollowTheirRule : Obligations.StickyFlagsFollowTheirRule := by
  refine ⟨?pixel, fun _ _ _ _ ht hr hpixel hframe hclear => exec_flags_kept ht hr hpixel hframe hclear, ?cleared, ?reset⟩
  case pixel =>
    rintro s t a b c v ha hb hc ht ⟨r, hr, hok⟩
    have hv := (pixelInput_eq_some a b c v).mpr ⟨ha, hb, hc⟩
    obtain ⟨v', hv', rfl⟩ := exec_pixel_ok ht hr hok
    obtain rfl : v = v' := Option.some.inj (hv.symm.trans hv')
    have hrange := s.build.range_pos
    simp only [respond_zero, respond_oor, respond_sat, orFlags_zero, orFlags_oor, orFlags_sat, Bool.or_eq_true,
      pixelZero_iff hrange hv, outOfRange_iff, pixelSat_iff hrange hv, true_and]
  case cleared =>
    rintro i s t r ht hr (⟨w, h, f, rfl, hok⟩ | rfl)
    · cases accepted_of_resp_ok ht hr hok
      exact ⟨rfl, rfl, rfl⟩
    · cases ht
      exact ⟨rfl, rfl, rfl⟩
  case reset =>
    intro s draw rest hs
    exact ⟨_, step_of_resets hs, rfl, rfl, rfl⟩

/-- Settles O47: two accepted PIXELs of the same patterns packed the same pixel, and answer its bytes. -/
theorem pixelsAreIndependent : Obligations.PixelsAreIndependent := by
  intro s1 s2 t1 t2 r1 r2 a b c hbuild hfmt ht1 ht2 hr1 hr2 hok1 hok2
  obtain ⟨v, hv, rfl⟩ := exec_pixel_ok ht1 hr1 hok1
  obtain ⟨v', hv', rfl⟩ := exec_pixel_ok ht2 hr2 hok2
  obtain rfl : v = v' := Option.some.inj (hv.symm.trans hv')
  cases hr1
  cases hr2
  rw [hbuild, hfmt]

end

section
/-! Two runs side by side: states that differ in the bytes of pixels and SAT alone go on so (95_test_vectors.md E8), and
states that differ in bytes of RB no PIXEL of the frame has written go on so (R30, X1, X2). -/

namespace Sys2Proof.Machine

/-- Two commands whose checks decide alike are rejected alike, fault alike, or are both accepted. -/
theorem exec_cases_of_checks_eq {i j : Instr} {s1 s2 t1 t2 : State} (hsame : checks i s1 = checks j s2)
    (ht1 : exec i s1 = .next t1) (ht2 : exec j s2 = .next t2) :
    (∃ code, t1 = reject code s1 ∧ t2 = reject code s2) ∨
    (∃ code, t1 = frameFault code s1 ∧ t2 = frameFault code s2) ∨ (Accepted i s1 t1 ∧ Accepted j s2 t2) := by
  rcases exec_cases ht1 with ⟨c1, hc1, rfl⟩ | ⟨c1, hc1, rfl⟩ | ⟨hc1, hacc1⟩ <;>
    rcases exec_cases ht2 with ⟨c2, hc2, rfl⟩ | ⟨c2, hc2, rfl⟩ | ⟨hc2, hacc2⟩ <;>
    cases hc1.symm.trans (hsame.trans hc2)
  · exact .inl ⟨c1, rfl, rfl⟩
  · exact .inr (.inl ⟨c1, rfl, rfl⟩)
  · exact .inr (.inr ⟨hacc1, hacc2⟩)

/-! ## The format -/

/-- Two states that agree on all that the output format leaves alone: what E8 compares. -/
structure State.SameButBytes (s t : State) : Prop where
  build  : s.build = t.build
  st     : s.st = t.st
  width  : s.width = t.width
  height : s.height = t.height
  idx    : s.idx = t.idx
  err    : s.err = t.err
  zero   : s.zero = t.zero
  oor    : s.oor = t.oor

/-- The same command, or two FRAMEs that differ in the format alone. -/
def Instr.SameButFormat (i j : Instr) : Prop :=
  i = j ∨ ∃ w h f1 f2, i = .frame w h f1 ∧ j = .frame w h f2

theorem State.SameButBytes.area {s t : State} (h : s.SameButBytes t) : s.area = t.area := by
  rw [State.area, State.area, h.width, h.height]

theorem checks_sameButFormat {i j : Instr} {s t : State} (hi : Instr.SameButFormat i j) (h : s.SameButBytes t) :
    checks i s = checks j t := by
  rcases hi with rfl | ⟨w, ht, f1, f2, rfl, rfl⟩
  · exact checks_congr i h.build h.st h.idx h.area
  · rw [checks_frame_fmt w ht f1 f2]
    exact checks_congr _ h.build h.st h.idx h.area

theorem State.SameButBytes.respond {s t : State} (h : s.SameButBytes t) (c1 c2 : RespCode) (d1 d2 : Word64) :
    (respond c1 d1 s).SameButBytes (respond c2 d2 t) :=
  ⟨h.build, h.st, h.width, h.height, h.idx, h.err, h.zero, h.oor⟩

theorem openedFrame_sameButBytes {s t : State} (h : s.SameButBytes t) (w ht : Word32) (f1 f2 : Fmt) :
    (openedFrame w ht f1 s).SameButBytes (openedFrame w ht f2 t) :=
  ⟨h.build, rfl, rfl, rfl, rfl, rfl, rfl, rfl⟩

/-- ZERO and OOR of a pixel are the same in both formats (R106). -/
theorem packedState_sameButBytes {s t : State} (h : s.SameButBytes t) (v : Rgb Radiance) :
    (packedState v s).SameButBytes (packedState v t) where
  build := h.build
  st := h.st
  width := h.width
  height := h.height
  idx := by simp only [h.idx]
  err := h.err
  zero := by simp only [orFlags_zero, h.zero, h.build]
  oor := by simp only [orFlags_oor, h.oor, h.build]

theorem accepted_sameButBytes {i j : Instr} {s1 s2 t1 t2 : State} (hi : Instr.SameButFormat i j)
    (h : s1.SameButBytes s2) (h1 : Accepted i s1 t1) (h2 : Accepted j s2 t2) : t1.SameButBytes t2 := by
  rcases hi with rfl | ⟨w, ht, f1, f2, rfl, rfl⟩
  · cases h1 with
    | frame => cases h2; exact (openedFrame_sameButBytes h _ _ _ _).respond _ _ _ _
    | pixel _ _ hv =>
      cases h2 with
      | pixel _ _ hv' =>
        cases hv.symm.trans hv'
        exact (packedState_sameButBytes h _).respond _ _ _ _
    | finish =>
      cases h2
      exact ⟨h.build, rfl, h.width, h.height, h.idx, h.err, h.zero, h.oor⟩
    | clear =>
      cases h2
      exact ⟨h.build, rfl, rfl, rfl, rfl, rfl, rfl, rfl⟩
    | rdstat | rdcfg | rdcnt | rdbuf => cases h2; exact h.respond _ _ _ _
  · cases h1
    cases h2
    exact (openedFrame_sameButBytes h _ _ _ _).respond _ _ _ _

/-- The format changes nothing but bytes and SAT (E8): both commands are decided alike by their checks. -/
theorem exec_sameButBytes {i j : Instr} {s1 s2 t1 t2 : State} {r1 r2 : Response} (hi : Instr.SameButFormat i j)
    (h : s1.SameButBytes s2) (ht1 : exec i s1 = .next t1) (ht2 : exec j s2 = .next t2)
    (hr1 : t1.response = some r1) (hr2 : t2.response = some r2) : t1.SameButBytes t2 ∧ r1.resp = r2.resp := by
  rcases exec_cases_of_checks_eq (checks_sameButFormat hi h) ht1 ht2 with
    ⟨code, rfl, rfl⟩ | ⟨code, rfl, rfl⟩ | ⟨hacc1, hacc2⟩
  · cases hr1
    cases hr2
    exact ⟨h.respond _ _ _ _, rfl⟩
  · cases hr1
    cases hr2
    exact ⟨⟨h.build, rfl, h.width, h.height, h.idx, rfl, h.zero, h.oor⟩, rfl⟩
  · exact ⟨accepted_sameButBytes hi h hacc1 hacc2, (hacc1.resp_ok hr1).trans (hacc2.resp_ok hr2).symm⟩

/-! ## Bytes that the frame has not written -/

theorem State.Alike.area {s t : State} (h : s.Alike t) : s.area = t.area := by
  rw [State.area, State.area, h.width, h.height]

theorem State.Alike.status {s t : State} (h : s.Alike t) : s.status = t.status := by
  simp only [State.status, h.st, h.fmt, h.zero, h.oor, h.sat, h.err]

theorem State.Alike.with_st {s t : State} (h : s.Alike t) (st : FrameState) :
    State.Alike { s with st := st } { t with st := st } :=
  { h with st := rfl }

theorem State.Alike.with_err {s t : State} (h : s.Alike t) (err : Err) :
    State.Alike { s with err := err } { t with err := err } :=
  { h with err := rfl }

/-- One response given to both carries one STATUS. -/
theorem State.Alike.respond {s t : State} (h : s.Alike t) (code : RespCode) (data : Word64) :
    (respond code data s).Alike (respond code data t) :=
  { h with response := by simp only [respond_response, h.status] }

theorem State.Alike.frameFault {s t : State} (h : s.Alike t) (code : Err) :
    (frameFault code s).Alike (frameFault code t) :=
  ((h.with_st .error).with_err code).respond .fault 0

theorem openedFrame_alike {s t : State} (h : s.Alike t) (w ht : Word32) (f : Fmt) :
    (openedFrame w ht f s).Alike (openedFrame w ht f t) :=
  { h with
    st := rfl, width := rfl, height := rfl, fmt := rfl, idx := rfl, zero := rfl, oor := rfl, sat := rfl, err := rfl,
    written := fun _ ha => absurd ha (Nat.not_lt_zero _) }

theorem clearedState_alike {s t : State} (h : s.Alike t) : (clearedState s).Alike (clearedState t) :=
  { h with
    st := rfl, width := rfl, height := rfl, fmt := rfl, idx := rfl, zero := rfl, oor := rfl, sat := rfl, err := rfl,
    written := fun _ ha => absurd ha (Nat.not_lt_zero _) }

/-- The four bytes of an accepted PIXEL are written alike in both, and then belong to the written ones. -/
theorem packedState_alike {s t : State} (hs : s.Inv) (h : s.Alike t) (v : Rgb Radiance) (hlt : s.idx.toNat < s.area) :
    (packedState v s).Alike (packedState v t) :=
  { h with
    idx := by simp only [h.idx]
    zero := by simp only [orFlags_zero, h.zero, h.build]
    oor := by simp only [orFlags_oor, h.oor, h.build]
    sat := by simp only [orFlags_sat, h.sat, h.fmt, h.build]
    written := by
      intro a ha
      have ha : a < 4 * (s.idx + 1).toNat := ha
      rw [idx_succ_toNat hs hlt] at ha
      simp only [← h.idx, ← h.build, ← h.fmt, Memory.read_write4]
      split
      · rfl
      · exact h.written a (by omega) }

/-- A word below the written bytes reads alike in both. -/
theorem read4_alike {s t : State} (h : s.Alike t) {a : Nat} (ha : a + 4 ≤ 4 * s.idx.toNat) :
    s.rb.read4 a = t.rb.read4 a := by
  simp only [Memory.read4, h.written a (by omega), h.written (a + 1) (by omega), h.written (a + 2) (by omega),
    h.written (a + 3) (by omega)]

/-- An accepted command goes on alike: RDBUF reads inside a full frame, every byte of which is written. -/
theorem accepted_alike {i : Instr} {s1 s2 t1 t2 : State} (hinv : s1.Inv) (h : s1.Alike s2)
    (h1 : Accepted i s1 t1) (h2 : Accepted i s2 t2) : t1.Alike t2 := by
  cases h1 with
  | frame => cases h2; exact (openedFrame_alike h _ _ _).respond _ _
  | pixel hst hne hv =>
    cases h2 with
    | pixel _ _ hv' =>
      cases hv.symm.trans hv'
      rw [← h.build, ← h.fmt]
      exact (packedState_alike hinv h _ (idx_lt_area hinv hst hne)).respond _ _
  | finish => cases h2; exact (h.with_st .done).respond _ _
  | clear => cases h2; exact (clearedState_alike h).respond _ _
  | rdstat => cases h2; exact h.respond _ _
  | rdcfg => cases h2; rw [← h.width, ← h.height]; exact h.respond _ _
  | rdcnt => cases h2; rw [← h.idx]; exact h.respond _ _
  | @rdbuf p _ hst hp =>
    cases h2
    have hfull := hinv.done_full hst
    rw [← read4_alike h (by omega : 4 * p.toNat + 4 ≤ 4 * s1.idx.toNat)]
    exact h.respond _ _

theorem exec_alike {i : Instr} {s1 s2 t1 t2 : State} (hinv : s1.Inv) (h : s1.Alike s2)
    (ht1 : exec i s1 = .next t1) (ht2 : exec i s2 = .next t2) : t1.Alike t2 := by
  rcases exec_cases_of_checks_eq (checks_congr i h.build h.st h.idx h.area) ht1 ht2 with
    ⟨code, rfl, rfl⟩ | ⟨code, rfl, rfl⟩ | ⟨hacc1, hacc2⟩
  · exact h.respond _ _
  · exact h.frameFault _
  · exact accepted_alike hinv h hacc1 hacc2

/-! ## Steps and runs of alike states -/

theorem resetOf_alike (build : Config.Build) (draw1 draw2 : List Byte) {in1 in2 : List HostInput}
    (h : in1.map HostInput.forgetDraw = in2.map HostInput.forgetDraw) :
    (State.resetOf build draw1 in1).Alike (State.resetOf build draw2 in2) where
  build := rfl
  st := rfl
  width := rfl
  height := rfl
  fmt := rfl
  idx := rfl
  zero := rfl
  oor := rfl
  sat := rfl
  err := rfl
  response := rfl
  inputs := h
  written _ ha := absurd ha (Nat.not_lt_zero _)

/-- What an alike state's host presents: the same, but for the draw of a reset. -/
theorem State.Alike.sends {s t : State} (h : s.Alike t) {w : Word128} {rest : List HostInput} (hs : s.Sends w rest) :
    ∃ rest', t.Sends w rest' ∧ State.Alike { s with inputs := rest } { t with inputs := rest' } := by
  have hin := h.inputs
  rw [hs, List.map_cons] at hin
  obtain ⟨x, rest', ht, hx, hrest⟩ := List.map_eq_cons_iff.mp hin.symm
  cases x <;> cases hx
  exact ⟨rest', ht, { h with inputs := hrest.symm }⟩

theorem State.Alike.resets {s t : State} (h : s.Alike t) {draw : List Byte} {rest : List HostInput}
    (hs : s.Resets draw rest) :
    ∃ draw' rest', t.Resets draw' rest' ∧ rest.map HostInput.forgetDraw = rest'.map HostInput.forgetDraw := by
  have hin := h.inputs
  rcases hs with hs | ⟨w, hs⟩ <;> rw [hs, List.map_cons] at hin <;>
    obtain ⟨x, rest', ht, hx, hrest⟩ := List.map_eq_cons_iff.mp hin.symm <;> cases x <;> cases hx
  · exact ⟨_, rest', .inl ht, hrest.symm⟩
  · exact ⟨_, rest', .inr ⟨w, ht⟩, hrest.symm⟩

theorem step_alike {s1 s2 : State} (h1 : s1.Inv) (h2 : s2.Inv) (h : s1.Alike s2) :
    ∃ t1 t2, step s1 = .next t1 ∧ step s2 = .next t2 ∧ t1.Alike t2 := by
  rcases inputs_cases s1 with hs | ⟨draw, rest, hs⟩ | ⟨w, rest, e, hs, he⟩ | ⟨w, rest, i, hs, hi⟩
  · have hs2 : s2.inputs = [] := by simpa [hs] using h.inputs
    exact ⟨s1, s2, step_of_no_inputs hs, step_of_no_inputs hs2, h⟩
  · obtain ⟨draw', rest', hs', hrest⟩ := h.resets hs
    refine ⟨_, _, step_of_resets hs, step_of_resets hs', ?_⟩
    rw [← h.build]
    exact resetOf_alike _ _ _ hrest
  · obtain ⟨rest', hs', h'⟩ := h.sends hs
    exact ⟨_, _, step_of_illegal hs he, step_of_illegal hs' he, h'.respond _ _⟩
  · obtain ⟨rest', hs', h'⟩ := h.sends hs
    obtain ⟨t1, ht1⟩ := exec_total (h1.with_inputs rest) i
    obtain ⟨t2, ht2⟩ := exec_total (h2.with_inputs rest') i
    exact ⟨t1, t2, by rw [step_of_decodes hs hi, ht1], by rw [step_of_decodes hs' hi, ht2],
      exec_alike (h1.with_inputs rest) h' ht1 ht2⟩

/-- Alike states of the invariant run on alike. -/
theorem run_alike {s1 s2 : State} (h1 : s1.Inv) (h2 : s2.Inv) (h : s1.Alike s2) (k : Nat) :
    ∃ t1 t2, run k s1 = .next t1 ∧ run k s2 = .next t2 ∧ t1.Inv ∧ t1.Alike t2 := by
  induction k generalizing s1 s2 with
  | zero => exact ⟨s1, s2, rfl, rfl, h1, h⟩
  | succ k ih =>
    obtain ⟨u1, u2, hu1, hu2, hu⟩ := step_alike h1 h2 h
    rw [run_succ hu1, run_succ hu2]
    exact ih (step_inv h1 hu1) (step_inv h2 hu2) hu

/-- Alike states have the same raster: in DONE the frame is full, and every byte of it is written. -/
theorem State.Alike.raster {s t : State} (hs : s.Inv) (h : s.Alike t) : s.raster = t.raster := by
  unfold State.raster
  rw [← h.st, ← h.area]
  split
  · next hst =>
    have hfull := hs.done_full hst
    refine congrArg some (List.map_congr_left fun j hj => h.written _ ?_)
    have hj := List.mem_range.mp hj
    omega
  · rfl

end Sys2Proof.Machine

open Sys2Proof Sys2Proof.Machine

/-- Settles O48. -/
theorem formatChangesOnlyBytes : Obligations.FormatChangesOnlyBytes := by
  intro s1 s2 t1 t2 r1 r2 i1 i2 hi hbuild hst hw hh hidx herr hzero hoor ht1 ht2 hr1 hr2
  have h : s1.SameButBytes s2 := ⟨hbuild, hst, hw, hh, hidx, herr, hzero, hoor⟩
  obtain ⟨h', hresp⟩ := exec_sameButBytes hi h ht1 ht2 hr1 hr2
  exact ⟨h'.build, h'.st, h'.width, h'.height, h'.idx, h'.err, h'.zero, h'.oor, hresp⟩

/-- Settles O55: a step keeps two states alike (`step_alike`), any two reset states of a build are alike, and alike states
show the same response and raster. -/
theorem unwrittenBytesAreNeverObserved : Obligations.UnwrittenBytesAreNeverObserved := by
  refine ⟨fun _ _ h1 h2 h => step_alike h1 h2 h, fun build draw1 draw2 inputs k => ?_⟩
  obtain ⟨t1, t2, ht1, ht2, hinv, h⟩ :=
    run_alike (resetOf_inv build draw1 inputs) (resetOf_inv build draw2 inputs) (resetOf_alike build _ _ rfl) k
  exact ⟨t1, t2, ht1, ht2, h.response, h.raster hinv⟩

end

section
/-! The raster buffer's four-byte accesses (R52, R54): a word and its four bytes determine each other, and a read of four
bytes gives back the word written; and no state of the invariant stops (R50, R56). -/

namespace Sys2Proof.Machine

/-! ## A word and its bytes -/

/-- The four bytes of a word, joined again, are the word. -/
theorem wordOfBytes_byteOf (v : Word32) : wordOfBytes (byteOf v 0) (byteOf v 1) (byteOf v 2) (byteOf v 3) = v := by
  unfold wordOfBytes byteOf
  iterate 3 rw [BitVec.extractLsb'_append_extractLsb'_eq_extractLsb' (by decide)]
  exact BitVec.extractLsb'_eq_self

/-- Each byte of a joined word is the byte that was joined there. -/
theorem byteOf_wordOfBytes (b0 b1 b2 b3 : Byte) :
    byteOf (wordOfBytes b0 b1 b2 b3) 0 = b0 ∧ byteOf (wordOfBytes b0 b1 b2 b3) 1 = b1 ∧
    byteOf (wordOfBytes b0 b1 b2 b3) 2 = b2 ∧ byteOf (wordOfBytes b0 b1 b2 b3) 3 = b3 := by
  unfold wordOfBytes byteOf
  refine ⟨BitVec.extractLsb'_append_eq_right, ?_, ?_, ?_⟩
  · rw [BitVec.extractLsb'_append_eq_of_le (by decide)]
    exact BitVec.extractLsb'_append_eq_right
  · iterate 2 rw [BitVec.extractLsb'_append_eq_of_le (by decide)]
    exact BitVec.extractLsb'_append_eq_right
  · iterate 3 rw [BitVec.extractLsb'_append_eq_of_le (by decide)]
    exact BitVec.extractLsb'_eq_self

/-! ## The bytes of a word written -/

/-- The byte at `a + j` after a four-byte write at `a` is the word's byte `j` (R52). -/
theorem Memory.read_write4_add (m : Memory) (a : Nat) (v : Word32) (j : Nat) (hj : j < 4) :
    (m.write4 a v).read (a + j) = byteOf v j := by
  rw [Memory.read_write4, if_pos ⟨by omega, by omega⟩, Nat.add_sub_cancel_left]

/-- A read of the four bytes just written gives the word. -/
theorem Memory.read4_write4 (m : Memory) (a : Nat) (v : Word32) : (m.write4 a v).read4 a = v := by
  have hbyte := m.read_write4_add a v
  calc (m.write4 a v).read4 a
    _ = wordOfBytes (byteOf v 0) (byteOf v 1) (byteOf v 2) (byteOf v 3) := by
      rw [← hbyte 0 (by decide), ← hbyte 1 (by decide), ← hbyte 2 (by decide), ← hbyte 3 (by decide)]
      rfl
    _ = v := wordOfBytes_byteOf v

end Sys2Proof.Machine

open Sys2Proof Sys2Proof.Machine

/-- Settles O34: every clause but the read-back is the read of a byte after a four-byte write; the read-back joins the four
bytes again. -/
theorem bytesArePlacedLeastSignificantFirst : Obligations.BytesArePlacedLeastSignificantFirst := by
  intro m a v
  refine ⟨m.read_write4_add a v, fun x hx => ?_, m.read4_write4 a v, fun q => ?_⟩
  · rw [Memory.read_write4, if_neg (by omega)]
  · obtain ⟨h0, h1, h2, h3⟩ := byteOf_wordOfBytes q.q0 q.q1 q.q2 q.q3
    have hbyte := m.read_write4_add a q.word
    exact ⟨(hbyte 0 (by decide)).trans h0, (hbyte 1 (by decide)).trans h1, (hbyte 2 (by decide)).trans h2,
      (hbyte 3 (by decide)).trans h3⟩

/-- Settles O52: PIXEL's and RDBUF's accesses lie inside the frame, which fits RB (`exec_total`, `step_total`). -/
theorem invariantStatesNeverStop : Obligations.InvariantStatesNeverStop :=
  fun _ h => ⟨step_total h, exec_total h⟩

end

section
/-! The encoding (R70 to R73, R77): a word decodes to an instruction exactly when its fields are those of the instruction's
command. Decoder, encoder, R72 and the rows of opcode_table.json are compared through this one fact. -/

namespace Sys2Proof

open Sys2Proof.Machine

/-! ## The fields of each command -/

@[simp] theorem Fmt.ofBit_bit (f : Fmt) : Fmt.ofBit f.bit = f := by cases f <;> rfl

@[simp] theorem Fmt.bit_ofBit (b : BitVec 1) : (Fmt.ofBit b).bit = b := by
  rcases BitVec.eq_zero_or_eq_one b with rfl | rfl <;> rfl

/-- The two parts of FRAME's C: the bits that must be 0, and the format. -/
theorem fmtField_eq {c : Word32} (h : c.extractLsb' 1 31 = 0) : (c.extractLsb' 0 1).setWidth 32 = c := by
  calc (c.extractLsb' 0 1).setWidth 32
    _ = c.extractLsb' 1 31 ++ c.extractLsb' 0 1 := by rw [h, BitVec.setWidth_eq_append (by decide)]; rfl
    _ = c := by rw [BitVec.extractLsb'_append_extractLsb'_eq_extractLsb' (by decide), BitVec.extractLsb'_eq_self]

theorem fmtField_bits (f : Fmt) :
    (f.bit.setWidth 32).extractLsb' 1 31 = 0 ∧ (f.bit.setWidth 32).extractLsb' 0 1 = f.bit := by
  cases f <;> decide

/-- The two halves of RDBUF's index, joined (R73). -/
theorem index_halves (p : Word64) : p.extractLsb' 32 32 ++ p.extractLsb' 0 32 = p := by
  rw [BitVec.extractLsb'_append_extractLsb'_eq_extractLsb' (by decide), BitVec.extractLsb'_eq_self]

theorem Command.eq_frame {k : Command} (hrsv : k.rsv = 0) (hop : k.op = 0x01#8) (hc : k.c.extractLsb' 1 31 = 0) :
    k = (Instr.frame k.a k.b (Fmt.ofBit (k.c.extractLsb' 0 1))).command := by
  simp only [Instr.command, Fmt.bit_ofBit, fmtField_eq hc, ← hrsv, ← hop]

theorem Command.eq_pixel {k : Command} (hrsv : k.rsv = 0) (hop : k.op = 0x02#8) :
    k = (Instr.pixel k.a k.b k.c).command := by
  simp only [Instr.command, ← hrsv, ← hop]

theorem Command.eq_noOperands {k : Command} {op : Byte} (hrsv : k.rsv = 0) (hop : k.op = op) (ha : k.a = 0)
    (hb : k.b = 0) (hc : k.c = 0) : k = ⟨op, 0, 0, 0, 0⟩ := by
  cases k
  simp_all

theorem Command.eq_rdbuf {k : Command} (hrsv : k.rsv = 0) (hop : k.op = 0x08#8) (hc : k.c = 0) :
    k = (Instr.rdbuf (k.b ++ k.a)).command := by
  have ha : (k.b ++ k.a).extractLsb' 0 32 = k.a := BitVec.extractLsb'_append_eq_right
  have hb : (k.b ++ k.a).extractLsb' 32 32 = k.b :=
    (BitVec.extractLsb'_append_eq_of_le (by decide)).trans BitVec.extractLsb'_eq_self
  simp only [Instr.command, ha, hb]
  rw [← hrsv, ← hop, ← hc]

/-! ## The decoder -/

theorem decodeBody_command (i : Instr) : i.command.decodeBody = .ok i := by
  cases i with
  | frame w h f => simp [Instr.command, Command.decodeBody, fmtField_bits f]
  | pixel | finish | clear | rdstat | rdcfg | rdcnt => rfl
  | rdbuf p => simp [Instr.command, Command.decodeBody, index_halves]

theorem eq_of_noOperands {k : Command} {i j : Instr} (hrsv : k.rsv = 0) (h : k.noOperands j = .ok i) :
    i = j ∧ k = ⟨k.op, 0, 0, 0, 0⟩ := by
  unfold Command.noOperands at h
  split at h
  · next hz => exact ⟨by cases h; rfl, Command.eq_noOperands hrsv rfl hz.1 hz.2.1 hz.2.2⟩
  · cases h

theorem command_of_decodeBody {k : Command} {i : Instr} (hrsv : k.rsv = 0) (h : k.decodeBody = .ok i) :
    k = i.command := by
  have hno {j : Instr} {op : Byte} (hop : k.op = op) (h : k.noOperands j = .ok i)
      (hj : j.command = ⟨op, 0, 0, 0, 0⟩) : k = i.command := by
    obtain ⟨rfl, hk⟩ := eq_of_noOperands hrsv h
    rw [hj, hk, hop]
  unfold Command.decodeBody at h
  split_ifs at h with h1 hc h2 h3 h4 h5 h6 h7 h8 hc
  · cases h; exact Command.eq_frame hrsv h1 hc
  · cases h; exact Command.eq_pixel hrsv h2
  · exact hno h3 h rfl
  · exact hno h4 h rfl
  · exact hno h5 h rfl
  · exact hno h6 h rfl
  · exact hno h7 h rfl
  · cases h; exact Command.eq_rdbuf hrsv h8 hc

/-- A word decodes to an instruction exactly when its fields are those of the instruction's command. -/
theorem decode_eq_ok_iff (w : Word128) (i : Instr) : decode w = .ok i ↔ Command.ofWord w = i.command := by
  unfold decode
  constructor
  · intro h
    split at h
    · next hrsv => exact command_of_decodeBody hrsv h
    · cases h
  · intro h
    have hrsv : i.command.rsv = 0 := by cases i <;> rfl
    rw [h, if_pos hrsv, decodeBody_command]

theorem decode_encode (i : Instr) : decode (encode i) = .ok i :=
  (decode_eq_ok_iff _ _).mpr (Command.ofWord_toWord _)

theorem encode_of_decode {w : Word128} {i : Instr} (h : decode w = .ok i) : encode i = w := by
  rw [encode, ← (decode_eq_ok_iff w i).mp h, Command.toWord_ofWord]

/-! ## The well-formed words -/

/-- R72 as a proposition. -/
theorem Command.wellFormed_iff (k : Command) :
    k.wellFormed = true ↔
      k.rsv = 0 ∧
        ((k.op = 0x01#8 ∧ k.c.extractLsb' 1 31 = 0) ∨ k.op = 0x02#8 ∨
         (k.op ∈ [0x03#8, 0x04#8, 0x05#8, 0x06#8, 0x07#8] ∧ k.a = 0 ∧ k.b = 0 ∧ k.c = 0) ∨
         (k.op = 0x08#8 ∧ k.c = 0)) := by
  simp [Command.wellFormed, and_assoc, or_assoc]

/-- The well-formed commands are those of the instructions. -/
theorem Command.wellFormed_iff_exists (k : Command) : k.wellFormed = true ↔ ∃ i : Instr, k = i.command := by
  constructor
  · intro h
    obtain ⟨hrsv, ⟨hop, hc⟩ | hop | ⟨hop, ha, hb, hc⟩ | ⟨hop, hc⟩⟩ := k.wellFormed_iff.mp h
    · exact ⟨_, Command.eq_frame hrsv hop hc⟩
    · exact ⟨_, Command.eq_pixel hrsv hop⟩
    · have hk {op : Byte} (hop : k.op = op) := Command.eq_noOperands hrsv hop ha hb hc
      simp only [List.mem_cons, List.not_mem_nil, or_false] at hop
      rcases hop with hop | hop | hop | hop | hop
      · exact ⟨.finish, hk hop⟩
      · exact ⟨.clear, hk hop⟩
      · exact ⟨.rdstat, hk hop⟩
      · exact ⟨.rdcfg, hk hop⟩
      · exact ⟨.rdcnt, hk hop⟩
    · exact ⟨_, Command.eq_rdbuf hrsv hop hc⟩
  · rintro ⟨i, rfl⟩
    cases i with
    | frame w h f => simp [Instr.command, Command.wellFormed, fmtField_bits f]
    | pixel | finish | clear | rdstat | rdcfg | rdcnt | rdbuf => rfl

theorem wellFormed_iff_decodes (w : Word128) : (Command.ofWord w).wellFormed = true ↔ ∃ i, decode w = .ok i := by
  simp only [Command.wellFormed_iff_exists, decode_eq_ok_iff]

theorem not_wellFormed_iff_error (w : Word128) : (Command.ofWord w).wellFormed = false ↔ ∃ e, decode w = .error e := by
  rw [← Bool.not_eq_true, wellFormed_iff_decodes]
  cases decode w <;> simp


/-! ## The fields as bits of the word -/

/-- FRAME's bits that must be 0 are bits 127:97 of the word (R71). -/
theorem ofWord_c_high (w : Word128) : (Command.ofWord w).c.extractLsb' 1 31 = w.extractLsb' 97 31 := by
  apply BitVec.eq_of_getLsbD_eq
  intro i hi
  have hi' : 1 + i < 32 := by omega
  simp [Command.ofWord, hi, hi', ← Nat.add_assoc]

/-- A, B and C are bits 127:32 of the word (R70). -/
theorem ofWord_operands_zero_iff (w : Word128) :
    w.extractLsb' 32 96 = 0 ↔
      (Command.ofWord w).a = 0 ∧ (Command.ofWord w).b = 0 ∧ (Command.ofWord w).c = 0 := by
  have hjoin : (Command.ofWord w).c ++ ((Command.ofWord w).b ++ (Command.ofWord w).a) = w.extractLsb' 32 96 := by
    simp only [Command.ofWord]
    rw [BitVec.extractLsb'_append_extractLsb'_eq_extractLsb' (by decide),
      BitVec.extractLsb'_append_extractLsb'_eq_extractLsb' (by decide)]
  rw [← hjoin]
  simp only [← BitVec.toNat_inj, append_toNat, BitVec.ofNat_eq_ofNat, BitVec.toNat_ofNat]
  omega

theorem opcode_cases (op : Byte) :
    0x09#8 ≤ op ∨ op = 0x00#8 ∨ op = 0x01#8 ∨ op = 0x02#8 ∨ op = 0x03#8 ∨ op = 0x04#8 ∨ op = 0x05#8 ∨ op = 0x06#8 ∨
      op = 0x07#8 ∨ op = 0x08#8 := by
  bv_omega

/-- R77 on the fields: the negation of R72, opcode by opcode. -/
theorem Command.not_wellFormed_iff (k : Command) :
    k.wellFormed = false ↔
      k.op = 0x00#8 ∨ 0x09#8 ≤ k.op ∨ k.rsv ≠ 0 ∨ (k.op = 0x01#8 ∧ k.c.extractLsb' 1 31 ≠ 0) ∨
        (0x03#8 ≤ k.op ∧ k.op ≤ 0x07#8 ∧ ¬ (k.a = 0 ∧ k.b = 0 ∧ k.c = 0)) ∨ (k.op = 0x08#8 ∧ k.c ≠ 0) := by
  rw [← Bool.not_eq_true, k.wellFormed_iff]
  have hsmall (x : Byte) (hx : x < 0x09#8) (h : 0x09#8 ≤ k.op) : k.op ≠ x := by
    rintro rfl
    exact absurd h (BitVec.not_le.mpr hx)
  rcases opcode_cases k.op with h | h | h | h | h | h | h | h | h | h
  case inl => simp [h, hsmall]
  all_goals simp [h, or_iff_not_imp_left]

/-! ## The rows of opcode_table.json -/

theorem row_mem_opcodeTable (i : Instr) : i.row ∈ opcodeTable := by
  cases i <;> simp [opcodeTable, Instr.row]

theorem row_selects_encode (i : Instr) : i.row.selects (encode i) = true := by
  cases i with
  | frame w h f => exact Laws.SelectsOwnRow.frame w h f
  | pixel r g b => exact Laws.SelectsOwnRow.pixel r g b
  | finish => exact Laws.SelectsOwnRow.finish
  | clear => exact Laws.SelectsOwnRow.clear
  | rdstat => exact Laws.SelectsOwnRow.rdstat
  | rdcfg => exact Laws.SelectsOwnRow.rdcfg
  | rdcnt => exact Laws.SelectsOwnRow.rdcnt
  | rdbuf p => exact Laws.SelectsOwnRow.rdbuf p

theorem row_selects_of_decode {w : Word128} {i : Instr} (h : decode w = .ok i) : i.row.selects w = true :=
  encode_of_decode h ▸ row_selects_encode i

/-- A row is selected field by field. -/
theorem fields_of_selects {row : OpcodeRow} {w : Word128} (h : row.selects w = true) :
    (Command.ofWord w).op &&& (Command.ofWord row.mask).op = (Command.ofWord row.pattern).op ∧
    (Command.ofWord w).rsv &&& (Command.ofWord row.mask).rsv = (Command.ofWord row.pattern).rsv ∧
    (Command.ofWord w).c &&& (Command.ofWord row.mask).c = (Command.ofWord row.pattern).c := by
  rw [OpcodeRow.selects, decide_eq_true_eq] at h
  simp only [Command.ofWord, ← BitVec.extractLsb'_and, h, and_self]

/-- A row whose mask names every bit of OP and RSV fixes both. -/
theorem header_of_selects {row : OpcodeRow} {w : Word128} (h : row.selects w = true)
    (hop : (Command.ofWord row.mask).op = BitVec.allOnes 8) (hrsv : (Command.ofWord row.mask).rsv = BitVec.allOnes 24) :
    (Command.ofWord w).op = (Command.ofWord row.pattern).op ∧
    (Command.ofWord w).rsv = (Command.ofWord row.pattern).rsv := by
  obtain ⟨h1, h2, -⟩ := fields_of_selects h
  rw [hop, BitVec.and_allOnes] at h1
  rw [hrsv, BitVec.and_allOnes] at h2
  exact ⟨h1, h2⟩

/-- A row whose mask names every bit is selected by one word alone. -/
theorem decode_of_selects_exact {i : Instr} {w : Word128} (h : i.row.selects w = true)
    (hmask : i.row.mask = BitVec.allOnes 128) (hpattern : encode i = i.row.pattern) : decode w = .ok i := by
  rw [OpcodeRow.selects, decide_eq_true_eq, hmask, BitVec.and_allOnes] at h
  rw [h, ← hpattern, decode_encode]

theorem decode_of_selects_frame {w : Word128} (h : (Instr.row (.frame 0 0 .rgbm)).selects w = true) :
    ∃ wd ht f, decode w = .ok (.frame wd ht f) := by
  obtain ⟨hop, hrsv⟩ := header_of_selects h (by decide) (by decide)
  have hc : (Command.ofWord w).c.extractLsb' 1 31 = 0 := by
    have h31 := congrArg (BitVec.extractLsb' 1 31) (fields_of_selects h).2.2
    rwa [BitVec.extractLsb'_and, show (Command.ofWord (Instr.row (.frame 0 0 .rgbm)).mask).c.extractLsb' 1 31 =
      BitVec.allOnes 31 by decide, BitVec.and_allOnes] at h31
  exact ⟨_, _, _, (decode_eq_ok_iff _ _).mpr (Command.eq_frame hrsv hop hc)⟩

theorem decode_of_selects_pixel {w : Word128} (h : (Instr.row (.pixel 0 0 0)).selects w = true) :
    ∃ r g b, decode w = .ok (.pixel r g b) := by
  obtain ⟨hop, hrsv⟩ := header_of_selects h (by decide) (by decide)
  exact ⟨_, _, _, (decode_eq_ok_iff _ _).mpr (Command.eq_pixel hrsv hop)⟩

theorem decode_of_selects_rdbuf {w : Word128} (h : (Instr.row (.rdbuf 0)).selects w = true) :
    ∃ p, decode w = .ok (.rdbuf p) := by
  obtain ⟨hop, hrsv⟩ := header_of_selects h (by decide) (by decide)
  have hc : (Command.ofWord w).c = 0 := by
    have hc := (fields_of_selects h).2.2
    rwa [show (Command.ofWord (Instr.row (.rdbuf 0)).mask).c = BitVec.allOnes 32 by decide, BitVec.and_allOnes] at hc
  exact ⟨_, (decode_eq_ok_iff _ _).mpr (Command.eq_rdbuf hrsv hop hc)⟩

/-- A word that selects a row of the table decodes to an instruction of that row. -/
theorem decode_of_selects {row : OpcodeRow} {w : Word128} (hrow : row ∈ opcodeTable) (h : row.selects w = true) :
    ∃ i : Instr, decode w = .ok i ∧ i.row = row := by
  simp only [opcodeTable, List.mem_cons, List.not_mem_nil, or_false] at hrow
  rcases hrow with rfl | rfl | rfl | rfl | rfl | rfl | rfl | rfl
  · obtain ⟨wd, ht, f, hd⟩ := decode_of_selects_frame h
    exact ⟨_, hd, rfl⟩
  · obtain ⟨r, g, b, hd⟩ := decode_of_selects_pixel h
    exact ⟨_, hd, rfl⟩
  · exact ⟨.finish, decode_of_selects_exact h rfl (by decide), rfl⟩
  · exact ⟨.clear, decode_of_selects_exact h rfl (by decide), rfl⟩
  · exact ⟨.rdstat, decode_of_selects_exact h rfl (by decide), rfl⟩
  · exact ⟨.rdcfg, decode_of_selects_exact h rfl (by decide), rfl⟩
  · exact ⟨.rdcnt, decode_of_selects_exact h rfl (by decide), rfl⟩
  · obtain ⟨p, hd⟩ := decode_of_selects_rdbuf h
    exact ⟨_, hd, rfl⟩

end Sys2Proof

open Sys2Proof Sys2Proof.Machine

/-- Settles O1. -/
theorem decodeOfEncodeIsInstruction : Obligations.DecodeOfEncodeIsInstruction := decode_encode

/-- Settles O2. -/
theorem encodeOfDecodeIsWord : Obligations.EncodeOfDecodeIsWord := fun _ _ h => encode_of_decode h

/-- Settles O3: R72 is `Command.wellFormed_iff` on the bits, and the well-formed commands are those of the instructions. -/
theorem wellFormedWordsAreTheOnesThatDecode : Obligations.WellFormedWordsAreTheOnesThatDecode := by
  refine fun w => ⟨?bits, wellFormed_iff_decodes w, ?illegal⟩
  case bits =>
    rw [Command.wellFormed_iff, ofWord_c_high]
    rfl
  case illegal =>
    intro s rest hs hw
    obtain ⟨e, he⟩ := (not_wellFormed_iff_error w).mp hw
    exact step_of_illegal hs he

/-- Settles O4: the words that do not decode are those that R72 refuses (`Command.not_wellFormed_iff`). -/
theorem illegalWordsAreRejected : Obligations.IllegalWordsAreRejected := by
  refine fun s w rest hs => ⟨?_, fun e he => step_of_illegal hs he⟩
  rw [← not_wellFormed_iff_error, Command.not_wellFormed_iff, ofWord_c_high, ← ofWord_operands_zero_iff]
  rfl

/-- Settles O5: a selected row is the row of the instruction decoded (`decode_of_selects`), and a word decodes to one
instruction. -/
theorem tableSelectsTheDecodedRow : Obligations.TableSelectsTheDecodedRow := by
  refine fun w => ⟨?wellFormed, ?unique, fun i h => ⟨row_mem_opcodeTable i, row_selects_of_decode h⟩⟩
  case wellFormed =>
    rw [wellFormed_iff_decodes]
    constructor
    · rintro ⟨i, h⟩
      exact ⟨i.row, row_mem_opcodeTable i, row_selects_of_decode h⟩
    · rintro ⟨row, hrow, h⟩
      obtain ⟨i, hi, -⟩ := decode_of_selects hrow h
      exact ⟨i, hi⟩
  case unique =>
    intro r1 hr1 r2 hr2 h1 h2
    obtain ⟨i, hi, rfl⟩ := decode_of_selects hr1 h1
    obtain ⟨j, hj, rfl⟩ := decode_of_selects hr2 h2
    cases hi.symm.trans hj
    rfl

/-- Settles O6. -/
theorem listedWordsDecode : Obligations.ListedWordsDecode := by
  refine ⟨?_, ?_, ?_, ?_, ?_, ?_, ?_, ?_⟩ <;> decide

/-- Settles O7. -/
theorem pseudoInstructionsExpand : Obligations.PseudoInstructionsExpand := ⟨rfl, rfl, by decide, by decide⟩

end

section
/-! The response (R74 to R76): every command word gets one, with the STATUS as it then stands, and what DATA is. -/

namespace Sys2Proof.Machine

/-! ## Every command answers -/

theorem exec_inputs {i : Instr} {s t : State} (ht : exec i s = .next t) : t.inputs = s.inputs := by
  rcases exec_cases ht with ⟨code, -, rfl⟩ | ⟨code, -, rfl⟩ | ⟨-, hacc⟩
  · rfl
  · rfl
  · cases hacc <;> rfl

theorem exec_responds {i : Instr} {s t : State} (ht : exec i s = .next t) : ∃ r, t.response = some r := by
  rcases exec_cases ht with ⟨code, -, rfl⟩ | ⟨code, -, rfl⟩ | ⟨-, hacc⟩
  · exact ⟨_, rfl⟩
  · exact ⟨_, rfl⟩
  · cases hacc <;> exact ⟨_, rfl⟩

theorem step_responds {s : State} {w : Word128} {rest : List HostInput} (h : s.Inv) (hs : s.Sends w rest) :
    ∃ t r, step s = .next t ∧ t.inputs = rest ∧ t.response = some r := by
  cases hw : decode w with
  | error e => exact ⟨_, _, step_of_illegal hs hw, rfl, rfl⟩
  | ok i =>
    obtain ⟨t, ht⟩ := exec_total (h.with_inputs rest) i
    obtain ⟨r, hr⟩ := exec_responds ht
    exact ⟨t, r, (step_of_decodes hs hw).trans ht, exec_inputs ht, hr⟩

/-! ## DATA -/

/-- DATA is 0 without OK. -/
theorem exec_data_of_not_ok {i : Instr} {s t : State} {r : Response} (ht : exec i s = .next t)
    (hr : t.response = some r) (hne : r.resp ≠ .ok) : r.data = 0 := by
  rcases exec_cases ht with ⟨code, -, rfl⟩ | ⟨code, -, rfl⟩ | ⟨-, hacc⟩
  · cases hr; rfl
  · cases hr; rfl
  · exact absurd (hacc.resp_ok hr) hne

/-- The word of four bytes as a number, the first the least significant (R52). -/
theorem Memory.read4_toNat (m : Memory) (a : Nat) :
    (m.read4 a).toNat =
      (m.read a).toNat + 2 ^ 8 * (m.read (a + 1)).toNat + 2 ^ 16 * (m.read (a + 2)).toNat +
        2 ^ 24 * (m.read (a + 3)).toNat := by
  simp only [Memory.read4, wordOfBytes, append_toNat]
  omega

/-- DATA that carries a 32-bit word is the word's number. -/
theorem data_toNat (x : Word32) : (x.setWidth 64 : Word64).toNat = x.toNat :=
  BitVec.toNat_setWidth_of_le (by decide)

/-! ## The response word -/

theorem RespCode.code_toNat (c : RespCode) :
    c.code.toNat = match c with | .ok => 0 | .illegal => 1 | .wrongState => 2 | .badArg => 3 | .fault => 4 := by
  cases c <;> rfl

/-- The response word as a number, field by field at the fields' places (R74). -/
theorem Response.word_toNat (r : Response) :
    r.word.toNat = r.data.toNat + 2 ^ 64 * r.status.word.toNat + 2 ^ 96 * r.resp.code.toNat := by
  simp only [Response.word, append_toNat, BitVec.toNat_ofNat]
  omega

end Sys2Proof.Machine

open Sys2Proof Sys2Proof.Machine

/-- Settles O13: the state after the step is one of the invariant, so its response is fresh. -/
theorem everyCommandGetsOneResponse : Obligations.EveryCommandGetsOneResponse := by
  intro s w rest h hs
  obtain ⟨t, r, ht, hin, hr⟩ := step_responds h hs
  obtain ⟨hstatus, hdata⟩ := (step_inv h ht).response_fresh r hr
  exact ⟨t, r, ht, hin, hr, hstatus, hdata⟩

/-- Settles O16: only an accepted command answers OK, and then DATA is read off case by case; PIXEL's word is what its
four bytes read back as. -/
theorem responseDataByCommand : Obligations.ResponseDataByCommand := by
  refine fun i s t r ht hr => ⟨exec_data_of_not_ok ht hr, fun hok => ?_⟩
  cases accepted_of_resp_ok ht hr hok with
  | pixel =>
    cases hr
    rw [data_toNat, ← Memory.read4_toNat, respond_rb, Memory.read4_write4]
  | rdcfg =>
    cases hr
    exact (append_toNat s.height s.width).trans (Nat.add_comm _ _)
  | rdbuf =>
    cases hr
    rw [data_toNat, Memory.read4_toNat]
  | frame | finish | clear | rdstat | rdcnt => cases hr; rfl

/-- Settles O15. -/
theorem responseWordLayout : Obligations.ResponseWordLayout := by
  intro r
  have h := Response.word_toNat r
  rw [RespCode.code_toNat] at h
  exact h

end

section
/-! Binary32 patterns (R82): the fields as numbers, the magnitude as a whole number of units of 2^-149, which grows with the
pattern, the three answers of val32, and the patterns that the assembler finds for a value (R80). -/

namespace Sys2Proof.Machine

/-! ## The fields as numbers -/

theorem binary32Sign_eq_one_iff (b : Word32) : binary32Sign b = 1 ↔ b.toNat / 2 ^ 31 = 1 := by
  have hlt := b.isLt
  rw [binary32Sign, ← BitVec.toNat_inj, BitVec.extractLsb'_toNat, Nat.shiftRight_eq_div_pow,
    Nat.mod_eq_of_lt (by omega)]
  rfl

theorem binary32Exp_eq (b : Word32) : binary32Exp b = b.toNat / 2 ^ 23 % 256 := by
  rw [binary32Exp, BitVec.extractLsb'_toNat, Nat.shiftRight_eq_div_pow]

theorem binary32Frac_eq (b : Word32) : binary32Frac b = b.toNat % 2 ^ 23 := by
  rw [binary32Frac, BitVec.extractLsb'_toNat, Nat.shiftRight_zero]

/-! ## The magnitude in units of 2^-149 -/

/-- The magnitude of an exponent and a fraction field in units of 2^-149, the spacing of the subnormals: a whole number. -/
def scaledMagnitude : Nat → Nat → Nat
  | 0, f => f
  | d + 1, f => (2 ^ 23 + f) * 2 ^ d

/-- The magnitude of the pattern with number `n` and sign bit 0, in the same units. -/
def patternScaled (n : Nat) : Nat := scaledMagnitude (n / 2 ^ 23) (n % 2 ^ 23)

theorem binary32Magnitude_scaled (b : Word32) :
    binary32Magnitude b * 2 ^ 149 = scaledMagnitude (binary32Exp b) (binary32Frac b) := by
  unfold binary32Magnitude
  cases binary32Exp b with
  | zero => simp [scaledMagnitude, zpow_neg]
  | succ d =>
    have hunit : (2 : Rat) ^ (((d + 1 : Nat) : Int) - 150) * 2 ^ 149 = 2 ^ d := by
      rw [← zpow_ofNat, ← zpow_add₀ two_ne_zero, show ((d + 1 : Nat) : Int) - 150 + 149 = d by omega, zpow_natCast]
    rw [if_neg (Nat.succ_ne_zero d), mul_assoc, hunit, scaledMagnitude]
    push_cast
    rfl

theorem scaledMagnitude_eq_zero_iff (e f : Nat) : scaledMagnitude e f = 0 ↔ e = 0 ∧ f = 0 := by
  cases e <;> simp [scaledMagnitude]

theorem binary32Magnitude_eq_zero_iff (b : Word32) :
    binary32Magnitude b = 0 ↔ binary32Exp b = 0 ∧ binary32Frac b = 0 := by
  rw [← scaledMagnitude_eq_zero_iff, ← Nat.cast_eq_zero (R := Rat), ← binary32Magnitude_scaled]
  simp

/-- The next pattern has the larger magnitude: within an exponent the fraction grows, and the largest fraction of an
exponent is below the smallest of the next. -/
theorem patternScaled_strictMono : StrictMono patternScaled := by
  refine strictMono_nat_of_lt_succ fun n => ?_
  unfold patternScaled
  by_cases hcarry : n % 2 ^ 23 + 1 < 2 ^ 23
  · rw [show (n + 1) / 2 ^ 23 = n / 2 ^ 23 by omega, show (n + 1) % 2 ^ 23 = n % 2 ^ 23 + 1 by omega]
    cases n / 2 ^ 23 with
    | zero => exact Nat.lt_succ_self _
    | succ d =>
      simp only [scaledMagnitude]
      gcongr
      exact Nat.lt_succ_self _
  · rw [show (n + 1) / 2 ^ 23 = n / 2 ^ 23 + 1 by omega, show (n + 1) % 2 ^ 23 = 0 by omega,
      show n % 2 ^ 23 = 2 ^ 23 - 1 by omega]
    cases n / 2 ^ 23 with
    | zero => decide
    | succ d =>
      have hd : 0 < 2 ^ d := by positivity
      simp only [scaledMagnitude, pow_succ 2 d]
      omega

/-! ## The answers of val32 -/

theorem val32_eq_none_iff (b : Word32) :
    val32 b = none ↔
      (binary32Exp b = 255 ∧ binary32Frac b ≠ 0) ∨ (binary32Exp b = 255 ∧ binary32Sign b = 1) ∨
        (binary32Sign b = 1 ∧ (binary32Exp b ≠ 0 ∨ binary32Frac b ≠ 0)) := by
  have hzero := binary32Magnitude_eq_zero_iff b
  unfold val32
  split_ifs <;> grind

theorem val32_eq_pinf_iff (b : Word32) :
    val32 b = some .pinf ↔ binary32Exp b = 255 ∧ binary32Frac b = 0 ∧ binary32Sign b ≠ 1 := by
  unfold val32
  split_ifs <;> grind

theorem val32_eq_num_iff (b : Word32) (v : Rat) :
    val32 b = some (.num v) ↔
      binary32Exp b ≠ 255 ∧ (binary32Sign b = 1 → binary32Magnitude b = 0) ∧ binary32Magnitude b = v := by
  unfold val32
  split_ifs <;> grind

/-- A pattern with sign bit 0: below the pattern of +Inf its value is its magnitude, and from there on it has none. -/
theorem val32_eq_num_iff_scaled {b : Word32} (hb : b.toNat < 2 ^ 31) (v : Rat) :
    val32 b = some (.num v) ↔ b.toNat < 0x7F800000 ∧ v * 2 ^ 149 = patternScaled b.toNat := by
  have hsign : binary32Sign b ≠ 1 := by rw [Ne, binary32Sign_eq_one_iff]; omega
  have hexp : binary32Exp b = b.toNat / 2 ^ 23 := by rw [binary32Exp_eq]; omega
  have hfinite : binary32Exp b ≠ 255 ↔ b.toNat < 0x7F800000 := by rw [hexp]; omega
  have hvalue : binary32Magnitude b = v ↔ v * 2 ^ 149 = patternScaled b.toNat := by
    rw [patternScaled, ← hexp, ← binary32Frac_eq, ← binary32Magnitude_scaled, mul_left_inj' (by norm_num), eq_comm]
  rw [val32_eq_num_iff, hfinite, hvalue, and_iff_right fun h => absurd h hsign]

/-! ## The patterns of a value -/

/-- A rational in a range of natural numbers, written as the range's start and a rest. -/
theorem natural_iff (x : Rat) (lo hi f : Nat) :
    (x.den = 1 ∧ (lo : Rat) ≤ x ∧ x < hi) ∧ x.num.toNat - lo = f ↔ lo + f < hi ∧ x = ((lo + f : Nat) : Rat) := by
  constructor
  · rintro ⟨⟨hden, hlo, hhi⟩, hf⟩
    have hnum : (x.num : Rat) = x := (Rat.den_eq_one_iff x).mp hden
    rw [← hnum] at hlo hhi
    have hlo : (lo : Int) ≤ x.num := by exact_mod_cast hlo
    have hhi : x.num < (hi : Int) := by exact_mod_cast hhi
    have hsum : x.num = ((lo + f : Nat) : Int) := by omega
    exact ⟨by omega, by rw [← hnum, hsum, Int.cast_natCast]⟩
  · rintro ⟨hlt, rfl⟩
    exact ⟨⟨Rat.den_natCast _, by exact_mod_cast Nat.le_add_right lo f, by exact_mod_cast hlt⟩, by rw [Rat.num_natCast]; omega⟩

theorem fractionFor_eq_some_iff (v : Rat) (e f : Nat) :
    fractionFor v e = some f ↔ f < 2 ^ 23 ∧ v * 2 ^ 149 = scaledMagnitude e f := by
  unfold fractionFor
  cases e with
  | zero =>
    have h := natural_iff (v * 2 ^ (149 : Int)) 0 (2 ^ 23) f
    simp only [Nat.cast_zero, Nat.cast_pow, Nat.cast_ofNat, Nat.sub_zero, Nat.zero_add] at h
    rw [if_pos rfl, Option.ite_none_right_eq_some, Option.some.injEq, h]
    rfl
  | succ d =>
    have hunit : (2 : Rat) ^ ((150 : Int) - (d + 1 : Nat)) * 2 ^ d = 2 ^ 149 := by
      rw [← zpow_natCast 2 d, ← zpow_add₀ two_ne_zero, show (150 : Int) - (d + 1 : Nat) + d = 149 by omega, zpow_ofNat]
    have hvalue : v * 2 ^ ((150 : Int) - (d + 1 : Nat)) = ((2 ^ 23 + f : Nat) : Rat) ↔
        v * 2 ^ 149 = scaledMagnitude (d + 1) f := by
      rw [← hunit, scaledMagnitude, Nat.cast_mul, Nat.cast_pow, Nat.cast_ofNat, ← mul_assoc,
        mul_left_inj' (by positivity)]
    have h := natural_iff (v * 2 ^ ((150 : Int) - (d + 1 : Nat))) (2 ^ 23) (2 ^ 24) f
    rw [hvalue, show 2 ^ 23 + f < 2 ^ 24 ↔ f < 2 ^ 23 by omega] at h
    simp only [Nat.cast_pow, Nat.cast_ofNat] at h
    rw [if_neg (Nat.succ_ne_zero d), Option.ite_none_right_eq_some, Option.some.injEq, h]

/-- The number of a pattern put together from its fields (R82). -/
theorem joined_toNat (negative : Bool) {e f : Nat} (he : e < 256) (hf : f < 2 ^ 23) :
    (BitVec.ofBool negative ++ BitVec.ofNat 8 e ++ BitVec.ofNat 23 f).toNat =
      2 ^ 31 * negative.toNat + 2 ^ 23 * e + f := by
  simp only [append_toNat, BitVec.toNat_ofBool, BitVec.toNat_ofNat]
  omega

theorem exactBinary32_sound {v : Rat} {b : Word32} (h : exactBinary32 false v = some b) :
    b.toNat < 0x7F800000 ∧ v * 2 ^ 149 = patternScaled b.toNat := by
  obtain ⟨e, he, h⟩ := List.exists_of_findSome?_eq_some h
  obtain ⟨f, hf, rfl⟩ := Option.map_eq_some_iff.mp h
  obtain ⟨hf, hv⟩ := (fractionFor_eq_some_iff v e f).mp hf
  have he := List.mem_range.mp he
  have hn := joined_toNat false (by omega : e < 256) hf
  rw [Bool.toNat_false] at hn
  refine ⟨by omega, ?_⟩
  rw [hv, patternScaled, hn, show (2 ^ 31 * 0 + 2 ^ 23 * e + f) / 2 ^ 23 = e by omega,
    show (2 ^ 31 * 0 + 2 ^ 23 * e + f) % 2 ^ 23 = f by omega]

theorem exactBinary32_complete {v : Rat} {n : Nat} (hn : n < 0x7F800000) (hv : v * 2 ^ 149 = patternScaled n) :
    ∃ b, exactBinary32 false v = some b := by
  refine Option.isSome_iff_exists.mp (List.findSome?_isSome_iff.mpr ⟨n / 2 ^ 23, List.mem_range.mpr (by omega), ?_⟩)
  rw [(fractionFor_eq_some_iff v _ (n % 2 ^ 23)).mpr ⟨by omega, hv⟩]
  rfl

/-- The assembler finds the one finite pattern with sign bit 0 that has the value. -/
theorem exactBinary32_false_iff (v : Rat) (b : Word32) :
    exactBinary32 false v = some b ↔ b.toNat < 0x7F800000 ∧ v * 2 ^ 149 = patternScaled b.toNat := by
  refine ⟨exactBinary32_sound, fun ⟨hb, hv⟩ => ?_⟩
  obtain ⟨b', h'⟩ := exactBinary32_complete hb hv
  obtain ⟨-, hv'⟩ := exactBinary32_sound h'
  have hn : patternScaled b'.toNat = patternScaled b.toNat := by exact_mod_cast hv'.symm.trans hv
  rw [h', BitVec.eq_of_toNat_eq (patternScaled_strictMono.injective hn)]

theorem joined_true (e f : Nat) :
    BitVec.ofBool true ++ BitVec.ofNat 8 e ++ BitVec.ofNat 23 f =
      (BitVec.ofBool false ++ BitVec.ofNat 8 e ++ BitVec.ofNat 23 f) ||| 0x80000000#32 := by
  rw [show 0x80000000#32 = 1#1 ++ 0#8 ++ 0#23 by decide, BitVec.or_append, BitVec.or_append, BitVec.or_zero,
    BitVec.or_zero]
  rfl

/-- A minus sets the sign bit of the pattern found. -/
theorem exactBinary32_true (v : Rat) :
    exactBinary32 true v = (exactBinary32 false v).map (fun b => b ||| 0x80000000#32) := by
  unfold exactBinary32
  rw [List.map_findSome?]
  simp only [joined_true, Function.comp_def, Option.map_map]

end Sys2Proof.Machine

open Sys2Proof Sys2Proof.Machine

/-- Settles O38: val32 by the fields, and the magnitude as a whole number of units of 2^-149. -/
theorem val32DecodesBinary32 : Obligations.Val32DecodesBinary32 := by
  intro b s e f hs he hf
  have hsign := hs ▸ binary32Sign_eq_one_iff b
  have hexp := he ▸ binary32Exp_eq b
  have hfrac := hf ▸ binary32Frac_eq b
  refine ⟨?none, ?pinf, ?num⟩
  case none => rw [val32_eq_none_iff, hsign, hexp, hfrac]
  case pinf =>
    have hbit : s ≠ 1 ↔ s = 0 := by have := b.isLt; omega
    rw [val32_eq_pinf_iff, Ne, hsign, hexp, hfrac, ← Ne, hbit]
  case num =>
    intro v hv
    obtain ⟨-, -, rfl⟩ := (val32_eq_num_iff b v).mp hv
    have hscaled := binary32Magnitude_scaled b
    rw [hexp, hfrac] at hscaled
    refine ⟨binary32Magnitude_nonneg b, ?_, ?_⟩
    · rintro rfl
      exact hscaled
    · intro hne
      obtain ⟨d, rfl⟩ := Nat.exists_eq_add_one_of_ne_zero hne
      calc binary32Magnitude b * 2 ^ 150
        _ = binary32Magnitude b * 2 ^ 149 * 2 := by ring
        _ = ((2 ^ 23 + f) * 2 ^ d : Nat) * 2 := by rw [hscaled]; rfl
        _ = (2 ^ 23 + f) * 2 ^ (d + 1) := by push_cast; ring

/-- Settles O39: the magnitudes grow with the pattern, in units of 2^-149. -/
theorem val32IsStrictlyMonotone : Obligations.Val32IsStrictlyMonotone := by
  intro a b hab hb
  have hvalue {c : Word32} (hc : c.toNat < 0x7F800000) :
      val32 c = some (.num ((patternScaled c.toNat : Rat) / 2 ^ 149)) :=
    (val32_eq_num_iff_scaled (by omega) _).mpr ⟨hc, by field_simp⟩
  refine ⟨_, _, hvalue (hab.trans hb), hvalue hb, ?_⟩
  have hlt : (patternScaled a.toNat : Rat) < patternScaled b.toNat := by exact_mod_cast patternScaled_strictMono hab
  exact div_lt_div_of_pos_right hlt (by positivity)

/-- Settles O8: the pattern found is the one that val32 gives the value (`exactBinary32_false_iff`,
`val32_eq_num_iff_scaled`). -/
theorem assemblerTakesExactDecimals : Obligations.AssemblerTakesExactDecimals := by
  refine fun v => ⟨fun b => ?_, exactBinary32_true v⟩
  rw [exactBinary32_false_iff]
  constructor
  · intro h
    have hb : b.toNat < 2 ^ 31 := by omega
    exact ⟨hb, (val32_eq_num_iff_scaled hb v).mpr h⟩
  · rintro ⟨hb, h⟩
    exact (val32_eq_num_iff_scaled hb v).mp h

end

section
/-! The codec (R101 to R112): the clamp as a minimum, the multiplier's code as the least that covers the peak, the byte
cast as a clamp to 0..255, and the quantizer and the reconstructor on the encoder's quadruple. -/

namespace Sys2Proof.Machine

/-! ## The clamp -/

theorem clampRange_num (range v : Rat) : clampRange range (.num v) = min v range := by
  rcases le_or_gt v range with h | h
  · rw [clampRange_inside _ _ h, min_eq_left h]
  · simp [clampRange, h, h.le]

theorem aboveRange_eq_false_iff (range : Rat) (x : Radiance) :
    aboveRange range x = false ↔ x = .num (clampRange range x) := by
  cases x with
  | pinf => simp [aboveRange]
  | num v => simp [aboveRange, clampRange_num]

theorem outOfRange_eq_false_iff (range : Rat) (v : Rgb Radiance) :
    outOfRange range v = false ↔ v.r = .num (clampRange range v.r) ∧ v.g = .num (clampRange range v.g) ∧
      v.b = .num (clampRange range v.b) := by
  simp only [outOfRange, Bool.or_eq_false_iff, aboveRange_eq_false_iff, and_assoc]

/-! ## The multiplier's code -/

theorem multCode_of_peak_pos {peak : Rat} (h : 0 < peak) : multCode peak = ⌈peak * 255⌉ := by
  have hraw : 0 < rawCode peak := Int.ceil_pos.mpr (by positivity)
  have hnonzero : zeroPixel peak = false := decide_eq_false hraw.ne'
  simp [multCode, hnonzero, rawCode]

theorem one_div_255_le_multiplierOf {peak : Rat} (h : 0 ≤ peak) : 1 / 255 ≤ multiplierOf (multCode peak) := by
  have hk : (1 : Rat) ≤ multCode peak := by exact_mod_cast one_le_multCode peak h
  exact div_le_div_of_nonneg_right hk (by norm_num)

theorem multCode_le_255 {peak : Rat} (h : peak ≤ 1) : multCode peak ≤ 255 := by
  have hk := multiplierOf_le_one h
  rw [multiplierOf, div_le_one (by norm_num)] at hk
  exact_mod_cast hk

theorem div_multiplierOf_le_one_iff {j : Int} (hj : 0 < j) (x : Rat) : x / multiplierOf j ≤ 1 ↔ x * 255 ≤ j := by
  have hj' : (0 : Rat) < j := by exact_mod_cast hj
  rw [multiplierOf, div_le_one (by positivity), le_div_iff₀ (by norm_num)]

/-- The codes that scale no channel above 1 are those that cover the peak. -/
theorem scaled_channels_le_one_iff {j : Int} (hj : 0 < j) (n : Rgb Rat) :
    (n.r / multiplierOf j ≤ 1 ∧ n.g / multiplierOf j ≤ 1 ∧ n.b / multiplierOf j ≤ 1) ↔ ⌈peakOf n * 255⌉ ≤ j := by
  have h255 : (0 : Rat) ≤ 255 := by norm_num
  simp only [div_multiplierOf_le_one_iff hj, Int.ceil_le, peakOf, max_mul_of_nonneg _ _ h255, max_le_iff]

/-- The code is the least that scales no channel above 1 (R107 item 3). -/
theorem multCode_isLeast {n : Rgb Rat} (h : 0 < peakOf n) :
    IsLeast { j : Int | 0 < j ∧ n.r / multiplierOf j ≤ 1 ∧ n.g / multiplierOf j ≤ 1 ∧ n.b / multiplierOf j ≤ 1 }
      (multCode (peakOf n)) := by
  have hk : 0 < multCode (peakOf n) := one_le_multCode _ h.le
  constructor
  · exact ⟨hk, (scaled_channels_le_one_iff hk n).mpr (multCode_of_peak_pos h).ge⟩
  · rintro j ⟨hj, hfits⟩
    rw [multCode_of_peak_pos h]
    exact (scaled_channels_le_one_iff hj n).mp hfits

/-- The peak channel comes within one code of 1 (R107 item 5). -/
theorem lt_scaled_peak {peak : Rat} (h : 0 < peak) :
    ((multCode peak : Rat) - 1) / multCode peak < peak / multiplierOf (multCode peak) := by
  have hk : (0 : Rat) < multCode peak := by exact_mod_cast one_le_multCode peak h.le
  have hceil : (multCode peak : Rat) - 1 < peak * 255 := by
    rw [multCode_of_peak_pos h]
    linarith [Int.ceil_lt_add_one (peak * 255)]
  calc ((multCode peak : Rat) - 1) / multCode peak
    _ < peak * 255 / multCode peak := div_lt_div_of_pos_right hceil hk
    _ = peak / multiplierOf (multCode peak) := by rw [multiplierOf, div_div_eq_mul_div]

/-! ## The encoder on a valid pixel -/

section ValidPixel

variable {range : Rat} {a b c : Word32} {v : Rgb Radiance} (hr : 0 < range) (hv : pixelInput a b c = some v)
include hr hv

theorem rgbmEncode_channels_mem_unit :
    0 ≤ (rgbmEncode range v).r ∧ (rgbmEncode range v).r ≤ 1 ∧ 0 ≤ (rgbmEncode range v).g ∧
      (rgbmEncode range v).g ≤ 1 ∧ 0 ≤ (rgbmEncode range v).b ∧ (rgbmEncode range v).b ≤ 1 := by
  obtain ⟨hr0, hg0, hb0, h0, -⟩ := normalized_bounds hr hv
  obtain ⟨hrp, hgp, hbp⟩ := le_peakOf (normalizePixel range (clampPixel range v))
  have hm := (multiplierOf_pos _ h0).le
  exact ⟨div_nonneg hr0 hm, scaled_le_one h0 hrp, div_nonneg hg0 hm, scaled_le_one h0 hgp, div_nonneg hb0 hm,
    scaled_le_one h0 hbp⟩

/-- The quadruple's products are the normalized and the clamped channels, exactly (R107 item 4). -/
theorem rgbmEncode_products :
    let cl := clampPixel range v
    let n := normalizePixel range cl
    let q := rgbmEncode range v
    q.r * q.m = n.r ∧ q.g * q.m = n.g ∧ q.b * q.m = n.b ∧
      q.r * range * q.m = cl.r ∧ q.g * range * q.m = cl.g ∧ q.b * range * q.m = cl.b := by
  obtain ⟨-, -, -, h0, -⟩ := normalized_bounds hr hv
  have hm := (multiplierOf_pos _ h0).ne'
  have hclamped (y : Rat) {m : Rat} (hm : m ≠ 0) : y / range / m * range * m = y := by field_simp
  exact ⟨div_mul_cancel₀ _ hm, div_mul_cancel₀ _ hm, div_mul_cancel₀ _ hm, hclamped _ hm, hclamped _ hm,
    hclamped _ hm⟩

end ValidPixel

/-! ## The byte cast -/

theorem sat8_toNat (u : Int) : ((sat8 u).toNat : Int) = max 0 (min u 255) := by
  rcases lt_or_ge 255 u with habove | hle
  · rw [sat8_above u habove, min_eq_right habove.le]
    rfl
  · rcases lt_or_ge u 0 with hneg | hnonneg
    · rw [sat8, if_neg (by omega), if_pos hneg, min_eq_left hle, max_eq_left hneg.le]
      rfl
    · rw [sat8_inside u hnonneg hle]
      omega

theorem sat8_of_toNat (b : Byte) : sat8 b.toNat = b := by
  apply BitVec.eq_of_toNat_eq
  have := b.isLt
  rw [sat8_inside _ (by omega) (by omega), Int.toNat_natCast]

/-! ## The quantizer and the reconstructor -/

theorem quantizeInt_multiplierOf (k : Int) : quantizeInt (multiplierOf k) = k := by
  rw [quantizeInt, multiplierOf, div_mul_cancel₀ _ (by norm_num), Int.ceil_intCast]

/-- A reconstructed byte, from the clamped channel alone (R112 item 1). -/
theorem sat8_reconstructInt_scaled {range m c : Rat} (hr : 0 < range) (hm : 0 < m) (hc : 0 ≤ c) :
    ((sat8 (reconstructInt range m (c / range / m))).toNat : Int) = min ⌊255 * c⌋ 255 := by
  have hfloor : 0 ≤ ⌊255 * c⌋ := Int.floor_nonneg.mpr (by positivity)
  rw [reconstructInt_scaled hr hm, sat8_toNat]
  omega

/-! ## The black pixel and the pixel at RANGE -/

theorem normalize_black {range : Rat} (hr : 0 < range) :
    normalizePixel range (clampPixel range ⟨.num 0, .num 0, .num 0⟩) = ⟨0, 0, 0⟩ := by
  simp [normalizePixel, clampPixel, clampRange_inside _ _ hr.le]

theorem normalize_atRange {range : Rat} (hr : 0 < range) :
    normalizePixel range (clampPixel range ⟨.num range, .num range, .num range⟩) = ⟨1, 1, 1⟩ := by
  simp [normalizePixel, clampPixel, clampRange_inside _ _ le_rfl, hr.ne']

theorem rgbmEncode_black {range : Rat} (hr : 0 < range) :
    rgbmEncode range ⟨.num 0, .num 0, .num 0⟩ = ⟨0, 0, 0, 1 / 255⟩ := by
  rw [rgbmEncode, normalize_black hr]
  decide +kernel

theorem rgbmEncode_atRange {range : Rat} (hr : 0 < range) :
    rgbmEncode range ⟨.num range, .num range, .num range⟩ = ⟨1, 1, 1, 1⟩ := by
  rw [rgbmEncode, normalize_atRange hr]
  decide +kernel

theorem quantize_rgbmEncode_black {range : Rat} (hr : 0 < range) :
    quantize (rgbmEncode range ⟨.num 0, .num 0, .num 0⟩) = ⟨0, 0, 0, 1⟩ := by
  rw [rgbmEncode_black hr]
  decide +kernel

theorem reconstruct_of_zero_channels (range m : Rat) : reconstruct range ⟨0, 0, 0, m⟩ = ⟨0, 0, 0, 255⟩ := by
  simp [reconstruct, reconstructInt, sat8]

end Sys2Proof.Machine

open Sys2Proof Sys2Proof.Machine

/-- Settles O40: the clamp is a minimum (`clampRange_num`), and the peak, at most 1, bounds every normalized channel. -/
theorem clampIsReportedExactly : Obligations.ClampIsReportedExactly := by
  intro range a b c v hr hv
  obtain ⟨hr0, hg0, hb0, -, hpeak⟩ := normalized_bounds hr hv
  obtain ⟨hrp, hgp, hbp⟩ := le_peakOf (normalizePixel range (clampPixel range v))
  exact ⟨clampRange_num range, rfl, outOfRange_eq_false_iff range v, ⟨hr0, hrp.trans hpeak⟩, ⟨hg0, hgp.trans hpeak⟩,
    ⟨hb0, hbp.trans hpeak⟩⟩

/-- Settles O41: the items are the lemmas on the multiplier's code and on a valid pixel's quadruple; the example is
evaluated. -/
theorem encoderProperties : Obligations.EncoderProperties := by
  refine ⟨?_, by decide +kernel, by decide +kernel⟩
  rintro range a b c v _ _ _ _ hr hv rfl rfl rfl rfl
  obtain ⟨-, -, -, hpeak0, hpeak1⟩ := normalized_bounds hr hv
  refine ⟨rgbmEncode_channels_mem_unit hr hv,
    ⟨one_div_255_le_multiplierOf hpeak0, multiplierOf_le_one hpeak1, rfl⟩, multCode_isLeast,
    rgbmEncode_products hr hv, fun hpos => ?peakChannel⟩
  case peakChannel =>
    have hchannel {x : Rat} (hx : x = peakOf (normalizePixel range (clampPixel range v))) :=
      (lt_scaled_peak hpos).trans_eq (congrArg (· / _) hx.symm)
    exact ⟨hchannel, hchannel, hchannel⟩

/-- Settles O42: the cast is the clamp to 0..255 (`sat8_toNat`), and satd is its upper comparison. -/
theorem byteCastSaturates : Obligations.ByteCastSaturates :=
  fun u => ⟨sat8_toNat u, decide_eq_true_iff⟩

/-- Settles O43: the code k lies in 1..255 and is its own quantization, and so does every byte read back. -/
theorem quantizerProperties : Obligations.QuantizerProperties := by
  refine ⟨fun range a b c v hr hv => ⟨quantizeSat_rgbmEncode hr hv, ?code, ?black⟩, fun q => ?byte⟩
  case code =>
    obtain ⟨-, -, -, hpeak0, hpeak1⟩ := normalized_bounds hr hv
    have hlow := one_le_multCode _ hpeak0
    have hhigh := multCode_le_255 hpeak1
    simp only [quantize, rgbmEncode, quadOf, quantizeInt_multiplierOf, sat8_toNat]
    omega
  case black =>
    rintro rfl
    exact quantize_rgbmEncode_black hr
  case byte =>
    have hint : quantizeInt ((q.toNat : Rat) / 255) = q.toNat := quantizeInt_multiplierOf q.toNat
    exact ⟨hint, hint ▸ sat8_of_toNat q⟩

/-- Settles O44: the reconstructor gives back 255 times the clamped channel (`sat8_reconstructInt_scaled`). -/
theorem reconstructorProperties : Obligations.ReconstructorProperties := by
  rintro range a b c v _ hr hv rfl
  obtain ⟨ha, hb, hc⟩ := (pixelInput_eq_some a b c v).mp hv
  obtain ⟨-, -, -, hpeak0, -⟩ := normalized_bounds hr hv
  have hm := multiplierOf_pos _ hpeak0
  refine ⟨sat8_reconstructInt_scaled hr hm (clampRange_nonneg hr ha),
    sat8_reconstructInt_scaled hr hm (clampRange_nonneg hr hb),
    sat8_reconstructInt_scaled hr hm (clampRange_nonneg hr hc), rfl, ?_⟩
  simp [reconstructSat_rgbmEncode hr hv, clampPixel]

/-- Settles O46: normalization takes RANGE out of both pixels, and what is left is evaluated. -/
theorem boundaryPixelsEncode : Obligations.BoundaryPixelsEncode := by
  intro range hr
  have hinside : clampRange range (.num range) = range := clampRange_inside range range le_rfl
  refine ⟨rgbmEncode_black hr, quantize_rgbmEncode_black hr, ?rgba, ?zero, ?peak, rgbmEncode_atRange hr, ?rgbm,
    ?notZero, ?inRange, ?notSat⟩
  case rgba => rw [pixelBytes, rgbmEncode_black hr, reconstruct_of_zero_channels]
  case zero => rw [pixelZero, normalize_black hr]; decide +kernel
  case peak => rw [normalize_atRange hr]; decide +kernel
  case rgbm => rw [pixelBytes, rgbmEncode_atRange hr]; decide +kernel
  case notZero => rw [pixelZero, normalize_atRange hr]; decide +kernel
  case inRange => simp [outOfRange_eq_false_iff, hinside]
  case notSat => rw [pixelSat, rgbmEncode_atRange hr]; decide +kernel

end

section
/-! The frame commands (R140 to R145): from its checks, what each command answers (R190 to R193) and what the table of R145
says; and from its bits, what the core does with a word (R71, R72, R77). -/

namespace Sys2Proof.Machine

/-! ## From the checks to the answer -/

theorem exec_of_checks_reject {i : Instr} {s : State} {code : RespCode} (h : checks i s = .reject code) :
    exec i s = .next (s.rejected code) := by
  change exec i s = .next (reject code s)
  cases i with
  | frame => grind [checks, exec, execFrame]
  | pixel => grind [checks, exec, execPixel]
  | finish => grind [checks, exec, execFinish]
  | clear | rdstat | rdcfg | rdcnt => cases h
  | rdbuf => grind [checks, exec, execRdbuf]

theorem exec_of_checks_fault {i : Instr} {s : State} {code : Err} (h : checks i s = .fault code) :
    exec i s = .next (s.faulted code) := by
  change exec i s = .next (frameFault code s)
  cases i with
  | pixel => grind [checks, exec, execPixel]
  | finish => grind [checks, exec, execFinish]
  | frame | rdbuf => grind [checks]
  | clear | rdstat | rdcfg | rdcnt => cases h

/-- A command that passes its checks is carried out, RDBUF in a frame that fits RB. -/
theorem exec_of_accepted {i : Instr} {s t : State} (h : Accepted i s t)
    (hfits : ∀ p, i = .rdbuf p → s.area ≤ s.build.rbPixels) : exec i s = .next t := by
  cases h with
  | frame hst hfit => rw [exec, execFrame, if_neg hst, if_neg (not_lt.mpr hfit)]
  | pixel hst hne hv hin => simp [exec, execPixel, hst, hne, hv, packPixel_inside _ _ hin]
  | finish hst hfull => simp [exec, execFinish, hst, hfull]
  | clear | rdstat | rdcfg | rdcnt => rfl
  | @rdbuf p _ hst hp =>
    have hfits := hfits p rfl
    simp [exec, execRdbuf, hst, hp, memRead4_inside s (4 * p.toNat) (by omega)]

/-- RDBUF is rejected unless a frame is done. -/
theorem exec_rdbuf_of_not_done {s : State} (h : s.st ≠ .done) (p : Word64) :
    exec (.rdbuf p) s = .next (s.rejected .wrongState) :=
  exec_of_checks_reject (by simp [checks, h])

/-! ## The table of R145 -/

theorem transition_of_checks_reject {i : Instr} {s : State} {code : RespCode} (h : checks i s = .reject code) :
    transition i s = (s.st, code, s.err) := by
  cases i with
  | frame => cases hst : s.st <;> grind [checks, transition]
  | pixel => cases hst : s.st <;> grind [checks, transition]
  | finish => cases hst : s.st <;> grind [checks, transition]
  | clear | rdstat | rdcfg | rdcnt => cases h
  | rdbuf => cases hst : s.st <;> grind [checks, transition]

theorem transition_of_checks_fault {i : Instr} {s : State} {code : Err} (hinv : s.Inv)
    (h : checks i s = .fault code) : transition i s = (.error, .fault, code) := by
  obtain ⟨hst, -⟩ := checks_fault_active h
  have hlt := idx_lt_area hinv hst
  cases i with
  | pixel a b c =>
    have hnone := pixelInput_eq_none a b c
    grind [checks, transition]
  | finish => grind [checks, transition]
  | frame | rdbuf => grind [checks]
  | clear | rdstat | rdcfg | rdcnt => cases h

theorem Accepted.transition_eq {i : Instr} {s t : State} (hinv : s.Inv) (h : Accepted i s t) :
    transition i s = (t.st, .ok, t.err) := by
  cases h with
  | frame hst hfit => cases hs : s.st <;> grind [transition, respond_st, respond_err]
  | pixel hst hne hv =>
    obtain ⟨ha, hb, hc⟩ := (pixelInput_eq_some _ _ _ _).mp hv
    simp [transition, hst, idx_lt_area hinv hst hne, ha, hb, hc]
  | finish hst hfull => simp [transition, hst, hfull]
  | clear | rdstat | rdcfg | rdcnt => rfl
  | rdbuf hst hp => simp [transition, hst, hp]

/-! ## The words of a command -/

/-- The core answers a word that R72 refuses with ILLEGAL. -/
theorem step_of_not_wellFormed {s : State} {w : Word128} {rest : List HostInput} (hs : s.Sends w rest)
    (hw : (Command.ofWord w).wellFormed = false) :
    step s = .next (State.rejected { s with inputs := rest } .illegal) := by
  obtain ⟨e, he⟩ := (not_wellFormed_iff_error w).mp hw
  exact step_of_illegal hs he

/-- The core runs the instruction whose fields the word has. -/
theorem step_of_fields {s : State} {w : Word128} {rest : List HostInput} {i : Instr} (hs : s.Sends w rest)
    (hi : Command.ofWord w = i.command) : step s = exec i { s with inputs := rest } :=
  step_of_decodes hs ((decode_eq_ok_iff w i).mpr hi)

/-- FRAME's format is bit 96 of the word (R71). -/
theorem ofWord_c_low (w : Word128) : (Command.ofWord w).c.extractLsb' 0 1 = w.extractLsb' 96 1 := by
  apply BitVec.eq_of_getLsbD_eq
  intro i hi
  obtain rfl : i = 0 := by omega
  simp [Command.ofWord]

/-- RSV, A, B and C are bits 127:8 of the word (R70). -/
theorem ofWord_above_op_zero_iff (w : Word128) :
    w.extractLsb' 8 120 = 0 ↔
      (Command.ofWord w).rsv = 0 ∧ (Command.ofWord w).a = 0 ∧ (Command.ofWord w).b = 0 ∧ (Command.ofWord w).c = 0 := by
  rw [← ofWord_operands_zero_iff]
  have hjoin : w.extractLsb' 32 96 ++ (Command.ofWord w).rsv = w.extractLsb' 8 120 :=
    BitVec.extractLsb'_append_extractLsb'_eq_extractLsb' (by decide)
  rw [← hjoin]
  simp only [← BitVec.toNat_inj, append_toNat, BitVec.ofNat_eq_ofNat, BitVec.toNat_ofNat]
  omega

/-- The words of a command without operands: ILLEGAL with any bit above OP, else the command (R71, R72). -/
theorem step_of_noOperands_word {s : State} {w : Word128} {rest : List HostInput} {op : Byte} {i : Instr}
    (hs : s.Sends w rest) (hop : w.extractLsb' 0 8 = op) (hi : i.command = ⟨op, 0, 0, 0, 0⟩) (hlow : 0x03#8 ≤ op)
    (hhigh : op ≤ 0x07#8) :
    (w.extractLsb' 8 120 ≠ 0 → step s = .next (State.rejected { s with inputs := rest } .illegal)) ∧
    (w.extractLsb' 8 120 = 0 → step s = exec i { s with inputs := rest }) := by
  have hop' : (Command.ofWord w).op = op := hop
  rw [Ne, ofWord_above_op_zero_iff]
  constructor
  · intro hne
    apply step_of_not_wellFormed hs
    rw [Command.not_wellFormed_iff, hop']
    tauto
  · rintro ⟨hrsv, ha, hb, hc⟩
    exact step_of_fields hs ((Command.eq_noOperands hrsv hop ha hb hc).trans hi.symm)

/-! ## The black pixel -/

/-- The bytes of the black pixel in each format (R141). -/
theorem pixelBytes_black {range : Rat} (hr : 0 < range) (fmt : Fmt) :
    pixelBytes range fmt ⟨.num 0, .num 0, .num 0⟩ = ⟨0, 0, 0, match fmt with | .rgbm => 1 | .rgba => 255⟩ := by
  cases fmt with
  | rgbm => exact quantize_rgbmEncode_black hr
  | rgba => rw [pixelBytes, rgbmEncode_black hr, reconstruct_of_zero_channels]

end Sys2Proof.Machine

open Sys2Proof Sys2Proof.Machine

/-- Settles O17: RDBUF is rejected while the new frame is open, and FMT is one of `exec_config_cases`. -/
theorem frameFollowsItsRule : Obligations.FrameFollowsItsRule := by
  refine ⟨fun s w rest hs hop => ⟨?ill, ?run⟩, fun s w h f => ⟨?state, ?capacity, ?opened⟩,
    fun i s t ht hframe hclear => ?fmt⟩
  case ill =>
    intro hne
    apply step_of_not_wellFormed hs
    rw [Command.not_wellFormed_iff, ofWord_c_high]
    have hop' : (Command.ofWord w).op = 0x01#8 := hop
    have hne' : ¬ ((Command.ofWord w).rsv = 0 ∧ w.extractLsb' 97 31 = 0) := hne
    tauto
  case run =>
    rintro ⟨hrsv, hc⟩
    rw [← ofWord_c_low]
    exact step_of_fields hs (Command.eq_frame hrsv hop ((ofWord_c_high w).trans hc))
  case state =>
    intro hst
    exact exec_of_checks_reject (by simp [checks, hst])
  case capacity =>
    intro hst hcap
    exact exec_of_checks_reject (by simp [checks, hst, hcap])
  case opened =>
    intro hst hfit
    exact ⟨_, exec_of_accepted (.frame hst hfit) nofun, rfl, exec_rdbuf_of_not_done nofun⟩
  case fmt =>
    rcases exec_config_cases ht with hsame | ⟨rfl, -⟩ | ⟨hi, -⟩
    · exact congrArg (fun config => config.2.2) hsame
    · exact absurd rfl hclear
    · exact absurd hi (hframe _ _ _)

/-- Settles O18: the four bytes written are the packed word's, and a frame that fits RB keeps IDX + 1 from wrapping. -/
theorem pixelFollowsItsRule : Obligations.PixelFollowsItsRule := by
  refine ⟨fun s w rest hs hop => ⟨?ill, ?run⟩, fun s a b c => ⟨?state, ?overrun, ?input, ?packed⟩, by decide +kernel⟩
  case ill =>
    intro hne
    exact step_of_not_wellFormed hs ((Command.not_wellFormed_iff _).mpr (.inr (.inr (.inl hne))))
  case run =>
    intro hrsv
    exact step_of_fields hs (Command.eq_pixel hrsv hop)
  case state =>
    intro hst
    exact exec_of_checks_reject (by simp [checks, hst])
  case overrun =>
    intro hst hfull
    exact exec_of_checks_fault (by simp [checks, hst, hfull])
  case input =>
    intro hst hne hinvalid
    exact exec_of_checks_fault (by simp [checks, hst, hne, (pixelInput_eq_none a b c).mpr hinvalid])
  case packed =>
    intro v hst hlt hfits ha hb hc
    have hv := (pixelInput_eq_some a b c v).mpr ⟨ha, hb, hc⟩
    have hrange := s.build.range_pos
    obtain ⟨-, hother, -, hbytes⟩ := bytesArePlacedLeastSignificantFirst s.rb (4 * s.idx.toNat)
      (pixelBytes s.build.range s.fmt v).word
    obtain ⟨h0, h1, h2, h3⟩ := hbytes (pixelBytes s.build.range s.fmt v)
    have hcap := s.build.rbPixels_lt
    have hidx : (s.idx + 1).toNat = s.idx.toNat + 1 := BitVec.toNat_add_of_lt (by change _ + 1 < _; omega)
    refine ⟨_, pixelBytes s.build.range s.fmt v, exec_of_accepted (.pixel hst hlt.ne hv (by omega)) nofun,
      ?datapath, rfl, h0, h1, h2, h3, hother, hidx, hidx.trans_le hlt, ?black, ?infinite⟩
    case datapath => cases s.fmt <;> rfl
    case black =>
      rintro rfl
      exact ⟨pixelBytes_black hrange s.fmt, by simp [(pixelZero_iff hrange hv).mpr]⟩
    case infinite =>
      intro hinf
      have hout : outOfRange s.build.range v = true := (outOfRange_iff _ _).mpr (by grind)
      simp [hout]

/-- Settles O19: the raster of the closed frame is the bytes of its whole area. -/
theorem finishFollowsItsRule : Obligations.FinishFollowsItsRule := by
  refine ⟨fun _ _ _ hs hop => step_of_noOperands_word hs hop rfl (by decide) (by decide),
    fun s => ⟨?state, ?length, ?closed⟩⟩
  case state =>
    intro hst
    exact exec_of_checks_reject (by simp [checks, hst])
  case length =>
    intro hst hne
    exact exec_of_checks_fault (by simp [checks, hst, hne])
  case closed =>
    intro hst hfull
    refine ⟨_, exec_of_accepted (.finish hst hfull) nofun, rfl, fun _ => ⟨_, rfl, ?_⟩⟩
    simp [readBytes, State.area]

/-- Settles O20: CLEAR has no checks, and RDBUF is rejected in IDLE. -/
theorem clearFollowsItsRule : Obligations.ClearFollowsItsRule :=
  ⟨fun _ _ _ hs hop => step_of_noOperands_word hs hop rfl (by decide) (by decide),
    fun s => ⟨_, exec_of_accepted (s := s) .clear nofun, rfl, exec_rdbuf_of_not_done nofun⟩⟩

/-- Settles O30: the verdict of the checks gives the table's cell, in each of the three cases. -/
theorem transitionsFollowTheTable : Obligations.TransitionsFollowTheTable := by
  refine ⟨fun i s hinv => ?cell, fun _ _ _ hs => step_of_not_wellFormed hs,
    fun _ _ _ hs => ⟨_, step_of_resets hs, rfl⟩⟩
  case cell =>
    obtain ⟨t, ht⟩ := exec_total hinv i
    rcases exec_cases ht with ⟨code, hc, rfl⟩ | ⟨code, hc, rfl⟩ | ⟨-, hacc⟩
    · refine ⟨_, _, ht, rfl, (transition_of_checks_reject hc).symm, fun _ _ _ _ hok => ?_, fun _ => rfl⟩
      exact absurd hok (checks_reject_ne_ok hc)
    · exact ⟨_, _, ht, rfl, (transition_of_checks_fault hinv hc).symm, nofun, nofun⟩
    · obtain ⟨r, hr⟩ := exec_responds ht
      have hok := hacc.resp_ok hr
      refine ⟨t, r, ht, hr, by rw [hacc.transition_eq hinv, hok], ?_, by simp [hok]⟩
      rintro a b c rfl -
      cases hacc with
      | pixel hst hne => exact idx_succ_toNat hinv (idx_lt_area hinv hst hne)

end

section
/-! The read commands (R170 to R173): each answers and changes nothing but the response; what RDBUF answers inside a done
frame, byte by byte, and that a row-major index lies inside the frame. -/

namespace Sys2Proof.Machine

/-! ## A word read -/

/-- Byte `j` of the word read at `a` is the byte at `a + j` (R52). -/
theorem Memory.byteOf_read4 (m : Memory) (a : Nat) {j : Nat} (hj : j < 4) : byteOf (m.read4 a) j = m.read (a + j) := by
  obtain ⟨h0, h1, h2, h3⟩ := byteOf_wordOfBytes (m.read a) (m.read (a + 1)) (m.read (a + 2)) (m.read (a + 3))
  match j, hj with
  | 0, _ => exact h0
  | 1, _ => exact h1
  | 2, _ => exact h2
  | 3, _ => exact h3

/-- RDBUF inside a done frame that fits RB reads the four bytes of the pixel. -/
theorem exec_rdbuf_inside {s : State} {p : Word64} (hst : s.st = .done) (hp : p.toNat < s.area)
    (hfits : s.area ≤ s.build.rbPixels) :
    exec (.rdbuf p) s = .next (respond .ok ((s.rb.read4 (4 * p.toNat)).setWidth 64) s) :=
  exec_of_accepted (.rdbuf hst hp) fun _ _ => hfits

/-! ## The counter and the indices -/

/-- A frame fault does not count: a command that is answered with FAULT was not accepted. -/
theorem exec_idx_of_fault {i : Instr} {s t : State} {r : Response} (ht : exec i s = .next t)
    (hr : t.response = some r) (hfault : r.resp = .fault) : t.idx = s.idx := by
  have hnot : ¬ Accepted i s t := fun hacc => by simp [hacc.resp_ok hr] at hfault
  obtain ⟨-, -, -, -, hidx, -⟩ := exec_unaccepted_keeps ht hnot
  exact hidx

/-- The index of column `x` in row `y` lies inside the frame. -/
theorem rowMajor_lt_area {s : State} {x y : Nat} (hx : x < s.width.toNat) (hy : y < s.height.toNat) :
    y * s.width.toNat + x < s.area :=
  calc y * s.width.toNat + x
    _ < (y + 1) * s.width.toNat := by rw [Nat.succ_mul]; omega
    _ ≤ s.height.toNat * s.width.toNat := Nat.mul_le_mul_right _ hy
    _ = s.area := Nat.mul_comm _ _

/-- An index inside a frame of the invariant fits in 64 bits. -/
theorem index_toNat {s : State} (h : s.Inv) {n : Nat} (hn : n < s.area) : (BitVec.ofNat 64 n).toNat = n :=
  Nat.mod_eq_of_lt (hn.trans (h.fits.trans_lt s.build.rbPixels_lt))

end Sys2Proof.Machine

open Sys2Proof Sys2Proof.Machine

/-- Settles O21: RDSTAT has no checks, and NOP is another name for it. -/
theorem rdstatFollowsItsRule : Obligations.RdstatFollowsItsRule :=
  ⟨fun _ _ _ hs hop => step_of_noOperands_word hs hop rfl (by decide) (by decide),
    fun _ => exec_of_accepted .rdstat nofun, rfl⟩

/-- Settles O22: RDCFG has no checks, and the halves of its DATA are the two dimensions. -/
theorem rdcfgFollowsItsRule : Obligations.RdcfgFollowsItsRule := by
  refine ⟨fun _ _ _ hs hop => step_of_noOperands_word hs hop rfl (by decide) (by decide),
    fun s => ⟨s.height ++ s.width, ?width, ?height, exec_of_accepted .rdcfg nofun⟩⟩
  case width => exact BitVec.extractLsb'_append_eq_right
  case height => exact (BitVec.extractLsb'_append_eq_of_le (by decide)).trans BitVec.extractLsb'_eq_self

/-- Settles O23: RDCNT has no checks, and only an accepted command moves IDX. -/
theorem rdcntFollowsItsRule : Obligations.RdcntFollowsItsRule :=
  ⟨fun _ _ _ hs hop => step_of_noOperands_word hs hop rfl (by decide) (by decide),
    fun _ => exec_of_accepted .rdcnt nofun, fun _ _ _ _ => exec_idx_of_fault⟩

/-- Settles O24: the response is all that an RDBUF changes, so the second one reads what the first one read. -/
theorem rdbufFollowsItsRule : Obligations.RdbufFollowsItsRule := by
  refine ⟨fun s w rest hs hop => ⟨?ill, ?run⟩, fun s p => ⟨fun hst => exec_rdbuf_of_not_done hst p, ?outside, ?inside⟩⟩
  case ill =>
    intro hne
    apply step_of_not_wellFormed hs
    rw [Command.not_wellFormed_iff]
    have hop' : (Command.ofWord w).op = 0x08#8 := hop
    have hne' : ¬ ((Command.ofWord w).rsv = 0 ∧ (Command.ofWord w).c = 0) := hne
    tauto
  case run =>
    rintro ⟨hrsv, hc⟩
    have hindex : (Command.ofWord w).b ++ (Command.ofWord w).a = w.extractLsb' 32 64 :=
      BitVec.extractLsb'_append_extractLsb'_eq_extractLsb' (by decide)
    rw [← hindex]
    exact step_of_fields hs (Command.eq_rdbuf hrsv hop hc)
  case outside =>
    intro hst hp
    exact exec_of_checks_reject (by simp [checks, hst, hp])
  case inside =>
    intro hst hp hfits
    refine ⟨_, _, exec_rdbuf_inside hst hp hfits, ?_, rfl, exec_rdbuf_inside hst hp hfits⟩
    rw [data_toNat, Memory.read4_toNat]

/-- Settles O37: a row-major index lies inside the frame, where RDBUF reads the word of the four bytes. -/
theorem rowMajorIndicesAreReadable : Obligations.RowMajorIndicesAreReadable := by
  intro s x y hinv hst hx hy
  have hlt := rowMajor_lt_area hx hy
  have hidx := index_toNat hinv hlt
  have hread := exec_rdbuf_inside hst (hidx.trans_lt hlt) hinv.fits
  rw [hidx] at hread
  exact ⟨_, _, hread, rfl, fun j hj => (s.rb.byteOf_read4 _ hj).symm⟩

end

section
/-! Rejections, frame faults and the frame state machine (R190 to R195, R202, R204): which response each verdict of the
checks gives and why, that no command reads the response port, what leaves ERROR, and the raster of a done frame. -/

namespace Sys2Proof.Machine

/-! ## The response to each verdict, and its causes -/

/-- The response code that each verdict of the checks leads to (R75); `exec_resp` ties it to exec. -/
@[simp] def Verdict.resp : Verdict → RespCode
  | .reject code => code
  | .fault _ => .fault
  | .accept => .ok

theorem exec_resp {i : Instr} {s t : State} {r : Response} (ht : exec i s = .next t) (hr : t.response = some r) :
    r.resp = (checks i s).resp := by
  rcases exec_cases ht with ⟨code, hc, rfl⟩ | ⟨code, hc, rfl⟩ | ⟨hc, hacc⟩
  · cases hr
    rw [hc, Verdict.resp]
  · cases hr
    rw [hc, Verdict.resp]
  · rw [hc, Verdict.resp, hacc.resp_ok hr]

/-- The checks of a decoded command reject with these two codes alone (R191). -/
theorem checks_reject_code {i : Instr} {s : State} {code : RespCode} (h : checks i s = .reject code) :
    code = .wrongState ∨ code = .badArg := by
  cases i with
  | frame | pixel | finish | rdbuf => grind [checks]
  | clear | rdstat | rdcfg | rdcnt => cases h

/-- No command that decodes is ILLEGAL (R191). -/
theorem checks_resp_ne_illegal (i : Instr) (s : State) : (checks i s).resp ≠ .illegal := by
  cases h : checks i s with
  | reject code => rcases checks_reject_code h with rfl | rfl <;> nofun
  | fault | accept => nofun

/-- The causes of WRONG_STATE (R191). -/
theorem checks_resp_wrongState_iff (i : Instr) (s : State) :
    (checks i s).resp = .wrongState ↔
      (s.st = .active ∧ ∃ w h f, i = .frame w h f) ∨
      (s.st ≠ .active ∧ (i = .finish ∨ ∃ a b c, i = .pixel a b c)) ∨
      (s.st ≠ .done ∧ ∃ p, i = .rdbuf p) := by
  cases i with
  | frame | pixel | finish | rdbuf => simp only [checks]; split_ifs <;> simp_all
  | clear | rdstat | rdcfg | rdcnt => simp [checks]

/-- The causes of BADARG (R191). -/
theorem checks_resp_badArg_iff (i : Instr) (s : State) :
    (checks i s).resp = .badArg ↔
      (s.st ≠ .active ∧ ∃ w h f, i = .frame w h f ∧ s.build.rbPixels < w.toNat * h.toNat) ∨
      (s.st = .done ∧ ∃ p, i = .rdbuf p ∧ s.area ≤ p.toNat) := by
  cases i with
  | frame | pixel | finish | rdbuf => simp only [checks]; split_ifs <;> simp_all
  | clear | rdstat | rdcfg | rdcnt => simp [checks]

/-- The causes of the frame faults (R192). -/
theorem checks_fault_cases {i : Instr} {s : State} {code : Err} (h : checks i s = .fault code) :
    (code = .overrun ∧ s.idx.toNat = s.area ∧ ∃ a b c, i = .pixel a b c) ∨
    (code = .input ∧ s.idx.toNat ≠ s.area ∧
      ∃ a b c, i = .pixel a b c ∧ (val32 a = none ∨ val32 b = none ∨ val32 c = none)) ∨
    (code = .length ∧ s.idx.toNat ≠ s.area ∧ i = .finish) := by
  cases i with
  | pixel a b c =>
    have hinvalid := pixelInput_eq_none a b c
    grind [checks]
  | finish => grind [checks]
  | frame | rdbuf => grind [checks]
  | clear | rdstat | rdcfg | rdcnt => cases h

/-- Only a frame fault is answered with FAULT. -/
theorem fault_of_resp_fault {i : Instr} {s t : State} {r : Response} (ht : exec i s = .next t)
    (hr : t.response = some r) (hfault : r.resp = .fault) :
    ∃ code, checks i s = .fault code ∧ t = frameFault code s := by
  rcases exec_cases ht with ⟨code, hc, rfl⟩ | hfaulted | ⟨-, hacc⟩
  · cases hr
    rcases checks_reject_code hc with rfl | rfl <;> cases hfault
  · exact hfaulted
  · simp [hacc.resp_ok hr] at hfault

/-! ## The checks, one by one -/

/-- PIXEL is rejected unless a frame is open. -/
theorem exec_pixel_of_not_active {s : State} (h : s.st ≠ .active) (a b c : Word32) :
    exec (.pixel a b c) s = .next (s.rejected .wrongState) :=
  exec_of_checks_reject (by simp [checks, h])

/-- FINISH is rejected unless a frame is open. -/
theorem exec_finish_of_not_active {s : State} (h : s.st ≠ .active) : exec .finish s = .next (s.rejected .wrongState) :=
  exec_of_checks_reject (by simp [checks, h])

/-- A PIXEL to a full frame faults, whatever its channels. -/
theorem exec_pixel_of_full {s : State} (hst : s.st = .active) (hfull : s.idx.toNat = s.area) (a b c : Word32) :
    exec (.pixel a b c) s = .next (s.faulted .overrun) :=
  exec_of_checks_fault (by simp [checks, hst, hfull])

/-! ## No command reads the response port -/

theorem packPixel_outside (v : Rgb Radiance) (s : State) (h : ¬ 4 * s.idx.toNat + 4 ≤ 4 * s.build.rbPixels) :
    packPixel v s = .fault .rbNoSuchAddress := by
  have haddr : ¬ (s.orFlags v).addressable (4 * s.idx.toNat) = true := mt (addressable_iff _ _).mp h
  rw [packPixel, pixelOp, memWrite4, if_neg haddr]

theorem packPixel_with_response (v : Rgb Radiance) (s : State) (x : Option Response) :
    packPixel v { s with response := x } = packPixel v s := by
  by_cases hin : 4 * s.idx.toNat + 4 ≤ 4 * s.build.rbPixels
  · rw [packPixel_inside v s hin, packPixel_inside v { s with response := x } hin]
    rfl
  · rw [packPixel_outside v s hin, packPixel_outside v { s with response := x } hin]

/-- What the response port holds makes no difference to any command. -/
theorem exec_with_response (i : Instr) (s : State) (x : Option Response) :
    exec i { s with response := x } = exec i s := by
  cases i with
  | pixel a b c =>
    simp only [exec, execPixel, packPixel_with_response]
    rfl
  | frame | finish | clear | rdstat | rdcfg | rdcnt | rdbuf => rfl

/-! ## The step on a word -/

/-- A word is answered with ILLEGAL, or it decodes and its command is run. -/
theorem step_cases_of_sends {s t : State} {w : Word128} {rest : List HostInput} (hs : s.Sends w rest)
    (ht : step s = .next t) :
    (∃ e, decode w = .error e ∧ t = reject .illegal { s with inputs := rest }) ∨
    (∃ i, decode w = .ok i ∧ exec i { s with inputs := rest } = .next t) := by
  cases hw : decode w with
  | error e =>
    rw [step_of_illegal hs hw] at ht
    exact .inl ⟨e, rfl, by cases ht; rfl⟩
  | ok i =>
    rw [step_of_decodes hs hw] at ht
    exact .inr ⟨i, rfl, ht⟩

/-! ## In ERROR -/

/-- In ERROR no command faults (R195). -/
theorem exec_resp_ne_fault_of_error {i : Instr} {s t : State} {r : Response} (ht : exec i s = .next t)
    (hr : t.response = some r) (hst : s.st = .error) : r.resp ≠ .fault := by
  intro hfault
  obtain ⟨code, hc, -⟩ := fault_of_resp_fault ht hr hfault
  obtain ⟨hactive, -⟩ := checks_fault_active hc
  simp [hst] at hactive

/-- A command keeps ERROR and ERR, or it is CLEAR or an accepted FRAME (R195). -/
theorem exec_cases_of_error {i : Instr} {s t : State} (ht : exec i s = .next t) (hst : s.st = .error) :
    (t.st = .error ∧ t.err = s.err) ∨ (i = .clear ∧ t.st = .idle) ∨
    (∃ w h f, i = .frame w h f ∧ t.st = .active ∧ t.err = .none) := by
  rcases exec_cases ht with ⟨code, -, rfl⟩ | ⟨code, hc, rfl⟩ | ⟨-, hacc⟩
  · exact .inl ⟨hst, rfl⟩
  · obtain ⟨hactive, -⟩ := checks_fault_active hc
    simp [hst] at hactive
  · cases hacc with
    | frame => exact .inr (.inr ⟨_, _, _, rfl, rfl, rfl⟩)
    | clear => exact .inr (.inl ⟨rfl, rfl⟩)
    | pixel hactive | finish hactive => simp [hst] at hactive
    | rdstat | rdcfg | rdcnt | rdbuf => exact .inl ⟨hst, rfl⟩

/-- A step keeps ERROR and ERR, or leaves ERROR by reset, by CLEAR or by an accepted FRAME (R195). -/
theorem step_cases_of_error {s t : State} (ht : step s = .next t) (hst : s.st = .error) :
    (t.st = .error ∧ t.err = s.err) ∨
    (t.st ≠ .error ∧
      ((∃ draw rest, s.Resets draw rest) ∨
       (∃ w rest, s.Sends w rest ∧ decode w = .ok .clear ∧ t.st = .idle) ∨
       (∃ w rest wd ht f, s.Sends w rest ∧ decode w = .ok (.frame wd ht f) ∧ t.st = .active ∧ t.err = .none))) := by
  rcases step_cases ht with ⟨-, rfl⟩ | ⟨draw, rest, hs, rfl⟩ | ⟨w, rest, e, -, -, rfl⟩ | ⟨w, rest, i, hs, hi, hexec⟩
  · exact .inl ⟨hst, rfl⟩
  · exact .inr ⟨nofun, .inl ⟨draw, rest, hs⟩⟩
  · exact .inl ⟨hst, rfl⟩
  · rcases exec_cases_of_error hexec hst with hstays | ⟨rfl, hidle⟩ | ⟨wd, ht, f, rfl, hactive, herr⟩
    · exact .inl hstays
    · exact .inr ⟨by simp [hidle], .inr (.inl ⟨w, rest, hs, hi, hidle⟩)⟩
    · exact .inr ⟨by simp [hactive], .inr (.inr ⟨w, rest, wd, ht, f, hs, hi, hactive, herr⟩)⟩

/-! ## The raster -/

theorem readBytes_getElem? (s : State) (a : Nat) {n j : Nat} (hj : j < n) :
    (readBytes s a n)[j]? = some (s.rb.read (a + j)) := by
  simp [readBytes, hj]

/-- Byte `j` of a word carried as DATA is the word's byte `j`. -/
theorem data_byte (x : Word32) {j : Nat} (hj : j < 4) : (x.setWidth 64 : Word64).extractLsb' (8 * j) 8 = byteOf x j :=
  BitVec.extractLsb'_setWidth_of_le (by omega)

end Sys2Proof.Machine

open Sys2Proof Sys2Proof.Machine

/-- Settles O25: a rejection leaves its response alone, and no command reads the response port (`exec_with_response`). -/
theorem rejectedCommandsChangeNothing : Obligations.RejectedCommandsChangeNothing := by
  refine ⟨fun i s t r ht hr hrej => ?command, fun s w rest e hs he => ?word⟩
  case command =>
    rcases exec_cases ht with ⟨code, -, rfl⟩ | ⟨code, -, rfl⟩ | ⟨-, hacc⟩
    · cases hr
      exact ⟨rfl, fun j => exec_with_response j s _⟩
    · cases hr
      simp at hrej
    · simp [hacc.resp_ok hr] at hrej
  case word => exact ⟨_, step_of_illegal hs he, rfl, fun j => exec_with_response j { s with inputs := rest } _⟩

/-- Settles O26: the response is the verdict's (`exec_resp`), and each verdict has its causes. -/
theorem rejectionCauses : Obligations.RejectionCauses := by
  refine ⟨fun s t w rest r hs ht hr => ?illegal, fun i s t r ht hr => ?command⟩
  case illegal =>
    rcases step_cases_of_sends hs ht with ⟨e, he, rfl⟩ | ⟨i, hi, hexec⟩
    · cases hr
      exact iff_of_true rfl ⟨e, he⟩
    · rw [exec_resp hexec hr]
      exact iff_of_false (checks_resp_ne_illegal i _) (by simp [hi])
  case command =>
    rw [exec_resp ht hr]
    exact ⟨checks_resp_ne_illegal i s, checks_resp_wrongState_iff i s, checks_resp_badArg_iff i s⟩

/-- Settles O27: only a fault of the checks is answered with FAULT, and a fault of the checks has its cause. -/
theorem frameFaultsArePrecise : Obligations.FrameFaultsArePrecise := by
  refine ⟨fun i s t r ht hr hfault => ?cause,
    fun s hst => ⟨fun a b c hfull => exec_pixel_of_full hst hfull a b c, ?input, ?length⟩, fun s hst => ?error⟩
  case cause =>
    obtain ⟨code, hc, rfl⟩ := fault_of_resp_fault ht hr hfault
    obtain ⟨hst, hne⟩ := checks_fault_active hc
    exact ⟨code, hne, rfl, hst, checks_fault_cases hc⟩
  case input =>
    intro a b c hlt hinvalid
    exact exec_of_checks_fault (by simp [checks, hst, hlt.ne, (pixelInput_eq_none a b c).mpr hinvalid])
  case length =>
    intro hlt
    exact exec_of_checks_fault (by simp [checks, hst, hlt.ne])
  case error =>
    have hactive : s.st ≠ .active := by simp [hst]
    exact ⟨exec_pixel_of_not_active hactive, exec_finish_of_not_active hactive, exec_rdbuf_of_not_done (by simp [hst])⟩

/-- Settles O28: the earlier of the two failing checks decides, so the later one's hypothesis goes unused. -/
theorem checksRunInOrder : Obligations.ChecksRunInOrder := by
  refine ⟨fun _ _ _ hs hw => step_of_not_wellFormed hs hw, fun s w h f hst _ => ?frame,
    fun s p hst _ => exec_rdbuf_of_not_done hst p, fun s a b c hst _ => exec_pixel_of_not_active hst a b c,
    fun s a b c hst hfull _ => exec_pixel_of_full hst hfull a b c, fun s hst _ => exec_finish_of_not_active hst⟩
  case frame => exact exec_of_checks_reject (by simp [checks, hst])

/-- Settles O29: a step from ERROR is one of `step_cases_of_error`, and none of its commands faults. -/
theorem errorStateIsLeftOnlyByClearFrameOrReset : Obligations.ErrorStateIsLeftOnlyByClearFrameOrReset := by
  refine fun s t hst ht => ⟨fun hne => ?left, fun hstays => ?kept, fun w rest r hs hr => ?noFault⟩
  case left =>
    rcases step_cases_of_error ht hst with ⟨hstays, -⟩ | ⟨-, hleft⟩
    · exact absurd hstays hne
    · exact hleft
  case kept =>
    rcases step_cases_of_error ht hst with ⟨-, herr⟩ | ⟨hne, -⟩
    · exact herr
    · exact absurd hstays hne
  case noFault =>
    rcases step_cases_of_sends hs ht with ⟨e, -, rfl⟩ | ⟨i, -, hexec⟩
    · cases hr
      nofun
    · exact exec_resp_ne_fault_of_error hexec hr hst

/-- Settles O36: the raster is read off RB, and DATA carries the four bytes of the word that RDBUF reads. -/
theorem doneStatesHaveTheWholeRaster : Obligations.DoneStatesHaveTheWholeRaster := by
  refine fun s hinv => ⟨fun hst => if_neg hst, fun hst => ⟨_, if_pos hst, ?length, ?bytes, fun p hp => ?rdbuf⟩⟩
  case length => simp [readBytes, State.area]
  case bytes =>
    intro a ha
    rw [readBytes_getElem? s 0 (by simpa [readBytes] using ha), Nat.zero_add]
  case rdbuf =>
    refine ⟨_, _, exec_rdbuf_inside hst hp hinv.fits, rfl, rfl, fun j hj => ?_⟩
    rw [readBytes_getElem? s 0 (by omega), Nat.zero_add, data_byte _ hj, Memory.byteOf_read4 _ _ hj]

/-- Settles O10. -/
theorem onlyCommandsAndResetChangeState : Obligations.OnlyCommandsAndResetChangeState := by
  refine fun s => ⟨step_of_no_inputs, fun t ht hne => ?_⟩
  rcases step_cases ht with ⟨-, rfl⟩ | ⟨draw, rest, hs, -⟩ | ⟨w, rest, e, hs, -⟩ | ⟨w, rest, i, hs, -⟩
  · exact absurd rfl hne
  · exact ⟨rest, .inr ⟨draw, hs⟩⟩
  · exact ⟨rest, .inl ⟨w, hs⟩⟩
  · exact ⟨rest, .inl ⟨w, hs⟩⟩

end

section
/-! Reset (R220, R221, X1): every array is drawn by some reset. The frame sequence (R222): what an open frame holds after
some of its pixels, by induction on the pixels sent, and the raster and the RDBUF answers that follow from it. -/

namespace Sys2Proof.Machine

/-! ## Reset -/

/-- The draw of the bytes of `array` at the addresses of RB. -/
def drawOf (build : Config.Build) (array : Nat → Byte) : List Byte := (List.range (4 * build.rbPixels)).map array

theorem resetOf_drawOf_read (build : Config.Build) (array : Nat → Byte) (inputs : List HostInput) {a : Nat}
    (ha : a < 4 * build.rbPixels) : (State.resetOf build (drawOf build array) inputs).rb.read a = array a := by
  rw [resetOf_read, if_pos ha]
  simp [drawOf, ha]

/-! ## Runs of a host's commands -/

/-- The steps after the first `m`. -/
theorem run_add {s t : State} {m : Nat} (h : run m s = .next t) (n : Nat) : run (m + n) s = run n t := by
  induction m generalizing s with
  | zero => cases h; rw [Nat.zero_add]
  | succ m ih =>
    cases hs : step s with
    | next u =>
      rw [run_succ hs] at h
      rw [Nat.succ_add, run_succ hs, ih h]
    | fault r | refused r => simp [run, hs] at h

theorem run_one {s t : State} (h : step s = .next t) : run 1 s = .next t := run_succ h 0

theorem sendAll_append (l l' : List Instr) : sendAll (l ++ l') = sendAll l ++ sendAll l' := List.map_append

/-- The first of the commands sent is run, and the host goes on with the others. -/
theorem step_of_sendAll {s : State} {i : Instr} {rest : List HostInput} (h : s.inputs = sendAll [i] ++ rest) :
    step s = exec i { s with inputs := rest } :=
  step_of_decodes h (decode_encode i)

/-! ## Words and rasters -/

/-- A word apart from the four bytes written reads as before. -/
theorem Memory.read4_write4_apart (m : Memory) {a b : Nat} (v : Word32) (h : b + 4 ≤ a ∨ a + 4 ≤ b) :
    (m.write4 a v).read4 b = m.read4 b := by
  have hread : ∀ x, b ≤ x → x < b + 4 → (m.write4 a v).read x = m.read x := fun x _ _ => by
    rw [Memory.read_write4, if_neg (by omega)]
  simp (disch := omega) only [Memory.read4, hread]

/-- The four bytes of a byte quadruple, in address order (R51). -/
def ByteQuad.toList (q : ByteQuad) : List Byte := [q.q0, q.q1, q.q2, q.q3]

/-- Where the word of a quadruple is read, its bytes are read. -/
theorem readBytes_of_read4 {s : State} {a : Nat} {q : ByteQuad} (h : s.rb.read4 a = q.word) :
    readBytes s a 4 = q.toList := by
  obtain ⟨h0, h1, h2, h3⟩ := byteOf_wordOfBytes q.q0 q.q1 q.q2 q.q3
  have hbyte : ∀ j < 4, s.rb.read (a + j) = byteOf q.word j := fun j hj => by rw [← h, Memory.byteOf_read4 _ _ hj]
  calc readBytes s a 4
    _ = (List.range 4).map (byteOf q.word) := List.map_congr_left fun j hj => hbyte j (List.mem_range.mp hj)
    _ = [byteOf q.word 0, byteOf q.word 1, byteOf q.word 2, byteOf q.word 3] := rfl
    _ = q.toList := by simp only [ByteQuad.word, h0, h1, h2, h3, ByteQuad.toList]

theorem readBytes_add (s : State) (a m n : Nat) : readBytes s a (m + n) = readBytes s a m ++ readBytes s (a + m) n := by
  simp [readBytes, List.range_add, Function.comp_def, Nat.add_assoc]

/-- Quadruples read one after another as words are read as the list of their bytes (R204). -/
theorem readBytes_of_words {s : State} {qs : List ByteQuad} {a : Nat}
    (h : ∀ p q, qs[p]? = some q → s.rb.read4 (a + 4 * p) = q.word) :
    readBytes s a (4 * qs.length) = qs.flatMap ByteQuad.toList := by
  induction qs generalizing a with
  | nil => rfl
  | cons q qs ih =>
    have hfirst : readBytes s a 4 = q.toList := readBytes_of_read4 (h 0 q rfl)
    have hothers : readBytes s (a + 4) (4 * qs.length) = qs.flatMap ByteQuad.toList := ih fun p q' hq => by
      rw [show a + 4 + 4 * p = a + 4 * (p + 1) by omega]
      exact h (p + 1) q' hq
    rw [List.length_cons, Nat.mul_succ, Nat.add_comm, readBytes_add, hfirst, hothers, List.flatMap_cons]

/-! ## What a frame holds -/

/-- A frame of `w` by `h` pixels in format `f` that holds the pixels `vs`, in the order sent (R26, R27, R57). -/
structure HoldsFrame (cfg : Config.Build) (w h : Word32) (f : Fmt) (vs : List (Rgb Radiance)) (s : State) : Prop where
  build : s.build = cfg
  width : s.width = w
  height : s.height = h
  fmt : s.fmt = f
  idx : s.idx.toNat = vs.length
  zero : s.zero = vs.any (pixelZero cfg.range)
  oor : s.oor = vs.any (outOfRange cfg.range)
  sat : s.sat = vs.any (pixelSat cfg.range f)
  words : ∀ p v, vs[p]? = some v → s.rb.read4 (4 * p) = (pixelBytes cfg.range f v).word

section HoldsFrame
variable {cfg : Config.Build} {w h : Word32} {f : Fmt} {vs : List (Rgb Radiance)} {s : State}

theorem HoldsFrame.area (hs : HoldsFrame cfg w h f vs s) : s.area = w.toNat * h.toNat := by
  rw [State.area, hs.width, hs.height]

theorem HoldsFrame.with_inputs (hs : HoldsFrame cfg w h f vs s) (inputs : List HostInput) :
    HoldsFrame cfg w h f vs { s with inputs := inputs } :=
  { hs with }

theorem HoldsFrame.with_st (hs : HoldsFrame cfg w h f vs s) (st : FrameState) :
    HoldsFrame cfg w h f vs { s with st := st } :=
  { hs with }

theorem HoldsFrame.respond (hs : HoldsFrame cfg w h f vs s) (code : RespCode) (data : Word64) :
    HoldsFrame cfg w h f vs (respond code data s) :=
  { hs with }

/-- A frame just opened holds no pixel. -/
theorem openedFrame_holds (w h : Word32) (f : Fmt) (s : State) : HoldsFrame s.build w h f [] (openedFrame w h f s) where
  build := rfl
  width := rfl
  height := rfl
  fmt := rfl
  idx := rfl
  zero := rfl
  oor := rfl
  sat := rfl
  words _ _ hv := by cases hv

/-- Packing a pixel adds it behind the others, whose bytes stay. -/
theorem packedState_holds (hs : HoldsFrame cfg w h f vs s) (hcap : vs.length < cfg.rbPixels) (v : Rgb Radiance) :
    HoldsFrame cfg w h f (vs ++ [v]) (packedState v s) where
  build := hs.build
  width := hs.width
  height := hs.height
  fmt := hs.fmt
  idx := by
    have hlt := cfg.rbPixels_lt
    have hidx := hs.idx
    rw [List.length_append, ← hidx]
    exact BitVec.toNat_add_of_lt (by change _ + 1 < _; omega)
  zero := by simp [hs.zero, hs.build]
  oor := by simp [hs.oor, hs.build]
  sat := by simp [hs.sat, hs.build, hs.fmt]
  words p u hu := by
    simp only [hs.build, hs.fmt, hs.idx]
    rcases Nat.lt_trichotomy p vs.length with hp | rfl | hp
    · rw [List.getElem?_append_left hp] at hu
      rw [Memory.read4_write4_apart _ _ (by omega), hs.words p u hu]
    · rw [List.getElem?_concat_length] at hu
      cases hu
      exact Memory.read4_write4 _ _ _
    · have hbeyond : (vs ++ [v]).length ≤ p := by rw [List.length_append]; exact hp
      rw [List.getElem?_eq_none hbeyond] at hu
      cases hu

/-- The bytes of a full frame are those of its pixels (R204). -/
theorem HoldsFrame.readBytes_eq (hs : HoldsFrame cfg w h f vs s) :
    readBytes s 0 (4 * vs.length) = vs.flatMap fun v => (pixelBytes cfg.range f v).toList := by
  have hwords := readBytes_of_words (s := s) (qs := vs.map (pixelBytes cfg.range f)) (a := 0) fun p q hq => by
    rw [List.getElem?_map, Option.map_eq_some_iff] at hq
    obtain ⟨v, hv, rfl⟩ := hq
    rw [Nat.zero_add, hs.words p v hv]
  rwa [List.length_map, List.flatMap_map] at hwords

/-! ## The frame sequence -/

/-- FRAME, in any state but ACTIVE, opens an empty frame. -/
theorem step_frame {rest : List HostInput} (hst : s.st ≠ .active) (hfit : w.toNat * h.toNat ≤ s.build.rbPixels)
    (hin : s.inputs = sendAll [.frame w h f] ++ rest) :
    ∃ t, step s = .next t ∧ t.st = .active ∧ t.inputs = rest ∧ HoldsFrame s.build w h f [] t :=
  ⟨_, (step_of_sendAll hin).trans (exec_of_accepted (.frame hst hfit) nofun), rfl, rfl,
    (openedFrame_holds w h f { s with inputs := rest }).respond _ _⟩

/-- A valid PIXEL, in an open frame that is not full, is added to it. -/
theorem step_pixel {a b c : Word32} {v : Rgb Radiance} {rest : List HostInput} (hst : s.st = .active)
    (hs : HoldsFrame cfg w h f vs s) (hfit : w.toNat * h.toNat ≤ cfg.rbPixels) (hlt : vs.length < w.toNat * h.toNat)
    (hv : pixelInput a b c = some v) (hin : s.inputs = sendAll [.pixel a b c] ++ rest) :
    ∃ t, step s = .next t ∧ t.st = .active ∧ t.inputs = rest ∧ HoldsFrame cfg w h f (vs ++ [v]) t := by
  have hne : s.idx.toNat ≠ s.area := by rw [hs.idx, hs.area]; exact hlt.ne
  have hinside : 4 * s.idx.toNat + 4 ≤ 4 * s.build.rbPixels := by rw [hs.idx, hs.build]; omega
  have hacc := Accepted.pixel (s := { s with inputs := rest }) hst hne hv hinside
  exact ⟨_, (step_of_sendAll hin).trans (exec_of_accepted hacc nofun), hst, rfl,
    (packedState_holds (hs.with_inputs rest) (hlt.trans_le hfit) v).respond _ _⟩

/-- Valid PIXELs that the frame has room for are added to it, one step each. -/
theorem run_pixels {ps : List (Word32 × Word32 × Word32)} {us : List (Rgb Radiance)} {rest : List HostInput}
    (hst : s.st = .active) (hs : HoldsFrame cfg w h f vs s) (hfit : w.toNat * h.toNat ≤ cfg.rbPixels)
    (hroom : vs.length + us.length ≤ w.toNat * h.toNat)
    (hvalid : ps.map (fun x => pixelInput x.1 x.2.1 x.2.2) = us.map some)
    (hin : s.inputs = sendAll (ps.map fun x => .pixel x.1 x.2.1 x.2.2) ++ rest) :
    ∃ t, run us.length s = .next t ∧ t.st = .active ∧ t.inputs = rest ∧ HoldsFrame cfg w h f (vs ++ us) t := by
  induction us generalizing vs s ps with
  | nil =>
    obtain rfl : ps = [] := by simpa using hvalid
    exact ⟨s, rfl, hst, hin, by rwa [List.append_nil]⟩
  | cons u us ih =>
    obtain ⟨⟨a, b, c⟩, ps, rfl, hu, hus⟩ := List.map_eq_cons_iff.mp hvalid
    rw [List.length_cons] at hroom
    obtain ⟨t, ht, hst', hin', hs'⟩ := step_pixel hst hs hfit (by omega) hu hin
    obtain ⟨t', hrun, hdone⟩ := ih hst' hs' (by rw [List.length_append, List.length_singleton]; omega) hus hin'
    rw [List.append_assoc] at hdone
    exact ⟨t', (run_succ ht _).trans hrun, hdone⟩

/-- FINISH closes a full frame. -/
theorem step_finish {rest : List HostInput} (hst : s.st = .active) (hs : HoldsFrame cfg w h f vs s)
    (hfull : vs.length = w.toNat * h.toNat) (hin : s.inputs = sendAll [.finish] ++ rest) :
    ∃ t, step s = .next t ∧ t.st = .done ∧ t.inputs = rest ∧
      t.response = some { resp := .ok, status := t.status, data := 0 } ∧ HoldsFrame cfg w h f vs t :=
  have hacc := Accepted.finish (s := { s with inputs := rest }) hst (hs.idx.trans (hfull.trans hs.area.symm))
  ⟨_, (step_of_sendAll hin).trans (exec_of_accepted hacc nofun), rfl, rfl, rfl,
    ((hs.with_inputs rest).with_st .done).respond _ _⟩

/-- RDBUF in a done frame answers the quadruple of the pixel at its index (R173, R204). -/
theorem exec_rdbuf_of_holds (hst : s.st = .done) (hs : HoldsFrame cfg w h f vs s)
    (hfit : w.toNat * h.toNat ≤ cfg.rbPixels) (hfull : vs.length = w.toNat * h.toNat) {p : Word64}
    (hp : p.toNat < vs.length) :
    exec (.rdbuf p) s =
      .next (respond .ok ((pixelBytes cfg.range f vs[p.toNat]).word.setWidth 64) s) := by
  have hinside : p.toNat < s.area := by rw [hs.area, ← hfull]; exact hp
  have hfits : s.area ≤ s.build.rbPixels := by rw [hs.area, hs.build]; exact hfit
  rw [exec_rdbuf_inside hst hinside hfits, hs.words p.toNat _ (List.getElem?_eq_getElem hp)]

end HoldsFrame

end Sys2Proof.Machine

open Sys2Proof Sys2Proof.Machine

/-- Settles O12: the array is drawn byte by byte (`drawOf`), and both forms of reset leave what was drawn. -/
theorem resetLeavesAnArbitraryRaster : Obligations.ResetLeavesAnArbitraryRaster := by
  refine ⟨fun s draw rest hs => ⟨_, step_of_resets hs, fun a b ha hb => ?drawn⟩,
    fun build array => ⟨drawOf build array, fun inputs a ha => resetOf_drawOf_read build array inputs ha, ?later⟩⟩
  case drawn => rw [resetOf_read, if_pos ha, hb, Option.getD_some]
  case later =>
    rintro s rest rfl hs
    exact ⟨_, step_of_resets hs, fun a ha => resetOf_drawOf_read s.build array rest ha⟩

/-- Settles O11: both forms of reset leave the reset state, whose registers are read off. -/
theorem resetPutsEveryRegister : Obligations.ResetPutsEveryRegister :=
  fun _ _ _ hs => ⟨_, step_of_resets hs, rfl, rfl, rfl, rfl, rfl, rfl, rfl, rfl, rfl, rfl, rfl, rfl⟩

/-- Settles O54: FRAME opens an empty frame, the PIXELs fill it (`run_pixels`, by induction on them), FINISH closes it;
the raster and the answers of RDBUF are then read off what the frame holds. -/
theorem frameSequenceReadsBack : Obligations.FrameSequenceReadsBack := by
  intro s w h f ps vs rest hst hfit hlen hvalid hin
  rw [← List.singleton_append, sendAll_append, sendAll_append, List.append_assoc, List.append_assoc] at hin
  obtain ⟨t₀, hrun₀, hst₀, hin₀, hs₀⟩ := step_frame hst hfit hin
  obtain ⟨t₁, hrun₁, hst₁, hin₁, hs₁⟩ := run_pixels hst₀ hs₀ hfit (by simp [hlen]) hvalid hin₀
  obtain ⟨t, hrun, hdone, hrest, hresp, hs⟩ := step_finish hst₁ hs₁ hlen hin₁
  rw [List.nil_append] at hs
  refine ⟨t, ?run, hdone, hrest, hs.width, hs.height, hs.fmt, hs.idx.trans hlen, hresp, ?raster, hs.zero, hs.oor,
    hs.sat, fun p hp => exec_rdbuf_of_holds hdone hs hfit hlen hp⟩
  case run =>
    calc run (w.toNat * h.toNat + 2) s
      _ = run (vs.length + 1) t₀ := by rw [← hlen]; exact run_succ hrun₀ _
      _ = run 1 t₁ := run_add hrun₁ 1
      _ = .next t := run_one hrun
  case raster =>
    rw [State.raster, if_pos hdone, hs.area, ← hlen, hs.readBytes_eq]
    rfl

end

section
/-! The reapplied radiance (C6): the quantizer rounds each scaled channel up by less than one byte step and keeps the
multiplier, so each channel's product with RANGE comes back at most one step of the multiplier too high. -/

namespace Sys2Proof.Machine

/-- The byte of a value in [0, 1], over 255, is that value rounded up by at most 1/255 (R109). -/
theorem quantized_bounds {x : Rat} (h0 : 0 ≤ x) (h1 : x ≤ 1) :
    x ≤ ((sat8 (quantizeInt x)).toNat : Rat) / 255 ∧ ((sat8 (quantizeInt x)).toNat : Rat) / 255 ≤ x + 1 / 255 := by
  have hlow : 0 ≤ quantizeInt x := Int.ceil_nonneg (by positivity)
  have hhigh : quantizeInt x ≤ 255 := Int.ceil_le.mpr (by push_cast; linarith)
  have hbyte : ((sat8 (quantizeInt x)).toNat : Int) = ⌈x * 255⌉ := by
    rw [sat8_toNat, min_eq_left hhigh, max_eq_right hlow, quantizeInt]
  have hcast : ((sat8 (quantizeInt x)).toNat : Rat) = ⌈x * 255⌉ := by exact_mod_cast hbyte
  rw [hcast]
  constructor
  · linarith [Int.le_ceil (x * 255)]
  · linarith [Int.ceil_lt_add_one (x * 255)]

/-- The product reapplied from the byte of `x` is at most one step above the product of `x`. -/
theorem reapplied_bounds {range m x : Rat} (hr : 0 < range) (hm : 0 < m) (h0 : 0 ≤ x) (h1 : x ≤ 1) :
    0 ≤ ((sat8 (quantizeInt x)).toNat : Rat) / 255 * range * m - x * range * m ∧
      ((sat8 (quantizeInt x)).toNat : Rat) / 255 * range * m - x * range * m ≤ range * m / 255 := by
  obtain ⟨hlow, hhigh⟩ := quantized_bounds h0 h1
  have hscale : 0 ≤ range * m := (mul_pos hr hm).le
  rw [← sub_mul, ← sub_mul, mul_assoc]
  constructor
  · exact mul_nonneg (sub_nonneg.mpr hlow) hscale
  · calc _ ≤ 1 / 255 * (range * m) := mul_le_mul_of_nonneg_right (by linarith) hscale
      _ = range * m / 255 := by ring

/-- The quantizer keeps the encoder's multiplier exactly (R110 item 2). -/
theorem quantize_rgbmEncode_multiplier {range : Rat} {a b c : Word32} {v : Rgb Radiance} (hr : 0 < range)
    (hv : pixelInput a b c = some v) :
    ((quantize (rgbmEncode range v)).q3.toNat : Rat) / 255 = (rgbmEncode range v).m := by
  obtain ⟨-, hcode, -⟩ := quantizerProperties.1 range a b c v hr hv
  exact congrArg (· / 255) (by exact_mod_cast hcode)

end Sys2Proof.Machine

open Sys2Proof Sys2Proof.Machine

/-- Settles O45: each clamped channel is the encoder's product, exactly (`rgbmEncode_products`), and quantizing lifts it
by at most one step (`reapplied_bounds`); the multiplier is at most 1. -/
theorem reappliedRadianceIsWithinOneStep : Obligations.ReappliedRadianceIsWithinOneStep := by
  rintro range a b c v _ _ _ hr hv rfl rfl rfl
  obtain ⟨-, -, -, hpeak0, hpeak1⟩ := normalized_bounds hr hv
  have hm0 : 0 < (rgbmEncode range v).m := multiplierOf_pos _ hpeak0
  have hm1 : (rgbmEncode range v).m ≤ 1 := multiplierOf_le_one hpeak1
  obtain ⟨hr0, hr1, hg0, hg1, hb0, hb1⟩ := rgbmEncode_channels_mem_unit hr hv
  obtain ⟨-, -, -, hcr, hcg, hcb⟩ := rgbmEncode_products hr hv
  rw [quantize_rgbmEncode_multiplier hr hv, ← hcr, ← hcg, ← hcb]
  refine ⟨reapplied_bounds hr hm0 hr0 hr1, reapplied_bounds hr hm0 hg0 hg1, reapplied_bounds hr hm0 hb0 hb1, ?_⟩
  exact div_le_div_of_nonneg_right (mul_le_of_le_one_right hr.le hm1) (by norm_num)

end
